-- ==== Sys2Proof/Word.lean ====
section
/-! DEFINITION. The bit-vector types of the block: `u8`, `u16` and `u32` of spec/00_scope.md rule R10. -/

namespace Sys2Proof

/-- `u8` (R10): one byte of guest memory, of a ROM image or of a storage stream. -/
abbrev Byte := BitVec 8

/-- `u16` (R10, R311): one flash word. -/
abbrev Half := BitVec 16

/-- `u32` (R10): a register value, an address, an interrupt countdown. -/
abbrev Word := BitVec 32

end Sys2Proof
end

