-- ==== Sys2Proof/Config.lean ====
section
/-! DEFINITION. The configuration record `Cfg` of spec/00_scope.md rule R7 as plain data, the constants that
rule R7 fixes, the test configuration `TC` of spec/95_test_vectors.md, and the free answers of the collaborators
(opaque: nothing in Lean can evaluate them). Assumption log: notes/assumptions/1.md to 5.md. -/

namespace Sys2Proof

/-! ## Names the configuration speaks of -/

/-- `EdmacRegName` (R230): the nine stored configuration registers of an EDMAC channel. -/
inductive EdmacReg where
  | addr | flags | sizeA | offA | sizeB | offB | sizeN | offN | byteOff
  deriving DecidableEq, Repr

/-- The four channel-switch sub-ranges (R237, R238): two assign read channels, two assign write channels. -/
inductive ChswSub where
  | r0 | r1 | w0 | w1
  deriving DecidableEq, Repr

/-- `FlashState` (R36): exactly these eleven values. `unlockBypass` and `unlockBypassReset` have no
transition into or out of them (R326). -/
inductive FlashState where
  | read | unlock2 | unlocked | erase1 | erase2 | erase3 | program
  | unlockBypass | unlockBypassReset | unlockBypassErase | blockEraseBusy
  deriving DecidableEq, Repr

/-- The named registers of the catalogue (R92), an indexed register with its instance number. -/
inductive RegName where
  | icCurrent | icEnable | icDisable (k : Nat)
  | clock | tmrCtrl (n : Nat) | tmrReload (n : Nat) | tmrValue (n : Nat)
  | hptCmp (n : Nat) | hptCtrl (n : Nat) | hptStatus
  | dmaSrc (c : Nat) | dmaDst (c : Nat) | dmaCount (c : Nat) | dmaCtrl (c : Nat)
  | edm (r : EdmacReg) (ch : Nat) | edmCtrl (ch : Nat)
  | sdCmdLo | sdCmdHi | sdCmdFlags | sdResp (i : Nat) | sdStatus
  | sdDmaAddr | sdDmaCount | sdDmaProgress | sdDmaCtrl | sdIrqEn
  | cfIntStatus | cfDmaAddr | cfDmaCount | cfDmaEn | cfDmaCtrl
  | pal4 (i : Nat) | pal8 (i : Nat) | bmpAddr | yuvAddr
  deriving DecidableEq, Repr

/-- The closed set of handler kinds (R121); `flash b` is the handler of ROM bank `b` (R310). -/
inductive Kind where
  | ic | timer | hptimer | dma | edmac | chsw | sdio | cf | flash (b : Nat) | display | modelConst
  deriving DecidableEq, Repr

/-- A handler `{name, lo, hi, kind, param}`, its range `[lo, hi]` with both bounds inclusive (R121). `param` is the
source's "opaque parameter": dispatch passes it on, no rule reads it (notes/assumptions/27.md). -/
structure Handler where
  name : String
  lo : Word
  hi : Word
  kind : Kind
  param : Word
  deriving DecidableEq, Repr

/-- What `sd_backend.do_command` answers (R64): a failure, a 4-byte or a 16-byte response. -/
inductive SdResponse where
  | fail
  | resp4 (b : Vector Byte 4)
  | resp16 (b : Vector Byte 16)
  deriving DecidableEq, Repr, Inhabited

/-- `SD_PACK` (R7, R265, D37), OPEN. `lanes r4 r16` packs by moving whole bytes: entry `4*i + j` of the list of
the response's form says which response byte lands in bits `8*j+7 .. 8*j` of response register `i` (`none`: 0).
`unstated k` is any other packing function: the free one of `Config.sdPack`. -/
inductive SdPack where
  | lanes (r4 r16 : List (Option Nat))
  | unstated (k : Nat)
  deriving DecidableEq, Repr

/-- The configuration of one EDMAC channel: `EDMAC_IS_WRITE(ch)` and `EDMAC_IRQ(ch)` (R231, R232). -/
structure EdmacCfg where
  isWrite : Bool
  irq : Option Word
  deriving DecidableEq, Repr

/-- One channel-switch sub-range: its base address and its raw-index-to-channel table, one entry for each of its
`len` slots of 4 bytes (R237). -/
structure ChswCfg where
  base : Word
  map : List (Option Nat)
  deriving DecidableEq, Repr

/-- One ROM bank: base address, size in bytes and loaded image (R67), the image as the bytes that differ from the
erased byte 0xFF, by rising offset. -/
structure BankCfg where
  base : Word
  size : Nat
  image : List Host.Cell
  deriving DecidableEq, Repr

/-- `YUV_LAYOUT` (R353): where U, Y0, V and Y1 stand in the four bytes that two pixels share. -/
structure YuvLayout where
  u : Nat
  y0 : Nat
  v : Nat
  y1 : Nat
  deriving DecidableEq, Repr

/-- `YUV_MATRIX` (R355). -/
inductive YuvMatrix where
  | bt601 | bt709
  deriving DecidableEq, Repr

/-- The configuration record (R7). It is plain data held by the state and changed by no step, so that a statement
about every state is a statement about every configuration. -/
structure Cfg where
  /-- `AddrMap` (R91), by rising address: no two registers share one. -/
  addrMap : List (RegName × Word)
  /-- `Handlers` (R121), in registration order. -/
  handlers : List Handler
  /-- `KnownRegions` (R123), as inclusive ranges. -/
  knownRegions : List (Word × Word)
  /-- `MODEL_CONST` (R125). -/
  modelConst : List (Word × Word)
  maxIrq : Nat
  irqIdShift : Nat
  nTimers : Nat
  osTimerCh : Nat
  osTimerIrq : Word
  clockStep : Nat
  clockMod : Nat
  hptIrq : Word
  hptOneshot : Bool
  /-- `DMA_IRQ[c]`, one entry per channel: its length is `N_DMA`. -/
  dmaIrq : List Word
  dmaK : Nat
  dmaBlock : Nat
  /-- one entry per EDMAC channel: its length is `N_EDMAC`. -/
  edmac : List EdmacCfg
  chswR0 : ChswCfg
  chswR1 : ChswCfg
  chswW0 : ChswCfg
  chswW1 : ChswCfg
  sdIrq : Word
  sdStDone : Nat
  sdStData : Nat
  sdStErr : Nat
  sdPack : SdPack
  /-- `CF_ATA_WIN` (R280): first and last address. -/
  cfAtaBase : Word
  cfAtaLast : Word
  cfStatusOff : Nat
  cfIrq : Word
  cfDmaIrq : Word
  cfDmaWriteCmd : Word
  cfSliceWords : Nat
  /-- the ROM banks: its length is `N_BANKS`. -/
  banks : List BankCfg
  flashSmEnabled : Bool
  flashCmdMask : Word
  flashBlockSize : Nat
  flashBusyReads : Nat
  flashToggle0 : Half
  flashToggle1 : Half
  bmpW : Nat
  bmpH : Nat
  bmpPitch : Nat
  yuvW : Nat
  yuvH : Nat
  yuvPitch : Nat
  yuvLayout : YuvLayout
  yuvMatrix : YuvMatrix
  /-- `TICK_PERIOD` (R372): no rule reads it. -/
  tickPeriod : Nat
  deriving DecidableEq, Repr

/-- `N_DMA`. -/
def Cfg.nDma (c : Cfg) : Nat := c.dmaIrq.length
/-- `N_EDMAC`. -/
def Cfg.nEdmac (c : Cfg) : Nat := c.edmac.length
/-- `N_BANKS`. -/
def Cfg.nBanks (c : Cfg) : Nat := c.banks.length
/-- The configuration of a channel-switch sub-range. -/
def Cfg.chsw (c : Cfg) : ChswSub → ChswCfg
  | .r0 => c.chswR0
  | .r1 => c.chswR1
  | .w0 => c.chswW0
  | .w1 => c.chswW1
/-- `ROM_SIZE[b]` (0 for a bank the configuration does not have). -/
def Cfg.bankSize (c : Cfg) (b : Nat) : Nat := (c.banks[b]?.map (·.size)).getD 0
/-- `ROM_BASE[b]` (0 for a bank the configuration does not have). -/
def Cfg.bankBase (c : Cfg) (b : Nat) : Word := (c.banks[b]?.map (·.base)).getD 0
/-- The number of IC_DISABLE registers, `ceil(MAX_IRQ / 32)` (R92). -/
def Cfg.nIcDisable (c : Cfg) : Nat := (c.maxIrq + 31) / 32

/-! ## The constants rule R7 fixes -/

/-- `LOG_REPEAT_LIMIT` (R7, R126). -/
def Config.logRepeatLimit : Nat := 5
/-- `OS_RELOAD_SHIFT` (R98). -/
def Config.osReloadShift : Nat := 8
/-- `N_HPT` (R7). -/
def Config.nHpt : Nat := 8
/-- `N_CONN` (R32). -/
def Config.nConn : Nat := 32
/-- `CF_DMA_READ_CMD` (R100). -/
def Config.cfDmaReadCmd : Word := 0x39
/-- `FLASH_DONE_STATUS` (R328). -/
def Config.flashDoneStatus : Word := 0x80
/-- Each byte of `ERASED_WORD` = 0xFFFF (R319). -/
def Config.erasedByte : Byte := 0xFF

/-! ## Free answers

What a collaborator answers to the `n`-th call that the script of the state does not cover (R64, R65, D37). They
have no body: a statement that holds of them holds whatever the collaborator answers. -/

/-- `SD_PACK` where the configuration does not give it by byte lanes (R265, D37). -/
opaque Config.sdPack : Nat → SdResponse → Word × Word × Word × Word
/-- What guest memory holds at an address that nothing in its history has written (R61, notes/assumptions/3.md). -/
opaque Config.guestInit : Nat → Byte
/-- What the `n`-th `MemRead` call returns for an address with no memory behind it (R61, notes/assumptions/3.md). -/
opaque Config.guestNoMemory : Nat → Nat → Byte
/-- The `(Y, U, V)` of bitmap pixel `(x, y)` where the YUV plane has no such sample: a plane of width or height 0 (R353
gives none; notes/assumptions/28.md). -/
opaque Config.yuvNoSample : Nat → Nat → Byte × Byte × Byte
/-- `sd_backend.do_command(cmd, arg)` (R64). -/
opaque Config.sdCommand : Nat → BitVec 6 → BitVec 40 → SdResponse
/-- `sd_backend.read_byte()` (R64). -/
opaque Config.sdReadByte : Nat → Byte
/-- `cf_backend.read_byte()` (R64). -/
opaque Config.cfReadByte : Nat → Byte
/-- `cf_backend.data_ready()` (R64). -/
opaque Config.cfDataReady : Nat → Bool
/-- `ide.ide_read(off)` (R65). -/
opaque Config.ideRead : Nat → Nat → Word
/-- whether the IDE abstraction signalled `ide_cmd_complete` during a forwarded access (R280, R281). -/
opaque Config.ideComplete : Nat → Bool
/-- `ide.ata_irq_enabled()` (R65). -/
opaque Config.ataIrqEnabled : Nat → Bool

/-! ## The test configuration `TC` (spec/95_test_vectors.md section 1)

The spec's own example values for the OPEN parameters. None of them is a claim about any camera. -/

/-- An address of `TC`: a base, an instance number times a spacing, an offset. -/
def Config.tcAt (base spacing n off : Nat) : Word := BitVec.ofNat 32 (base + spacing * n + off)

/-- Interrupt controller registers of `TC`. -/
def Config.tcIc : List (RegName × Word) :=
  (.icCurrent, 0xC0201004) :: (.icEnable, 0xC0201010) ::
    (List.range 4).map (fun k => (RegName.icDisable k, Config.tcAt 0xC0201200 4 k 0))

/-- TimerBank registers of `TC`. -/
def Config.tcTimer (n : Nat) : List (RegName × Word) :=
  [(.tmrCtrl n, Config.tcAt 0xC0210000 0x100 n 0), (.tmrReload n, Config.tcAt 0xC0210000 0x100 n 8),
   (.tmrValue n, Config.tcAt 0xC0210000 0x100 n 0xC)]

/-- HPTimer channel registers of `TC`. -/
def Config.tcHpt (n : Nat) : List (RegName × Word) :=
  [(.hptCmp n, Config.tcAt 0xC0243000 0x10 n 0), (.hptCtrl n, Config.tcAt 0xC0243000 0x10 n 4)]

/-- CF registers of `TC`. -/
def Config.tcCf : List (RegName × Word) :=
  [(.cfIntStatus, 0xC0600104), (.cfDmaAddr, 0xC0600200), (.cfDmaCount, 0xC0600204), (.cfDmaEn, 0xC0600208),
   (.cfDmaCtrl, 0xC060020C)]

/-- DMA channel registers of `TC`. -/
def Config.tcDma (c : Nat) : List (RegName × Word) :=
  [(.dmaCtrl c, Config.tcAt 0xC0A00000 0x100 c 0x08), (.dmaSrc c, Config.tcAt 0xC0A00000 0x100 c 0x18),
   (.dmaDst c, Config.tcAt 0xC0A00000 0x100 c 0x1C), (.dmaCount c, Config.tcAt 0xC0A00000 0x100 c 0x20)]

/-- SDIO registers of `TC`. -/
def Config.tcSd : List (RegName × Word) :=
  [(.sdCmdFlags, 0xC0C10008), (.sdCmdLo, 0xC0C1000C), (.sdCmdHi, 0xC0C10010), (.sdStatus, 0xC0C10018),
   (.sdIrqEn, 0xC0C1001C), (.sdResp 0, 0xC0C10034), (.sdResp 1, 0xC0C10038), (.sdResp 2, 0xC0C1003C),
   (.sdResp 3, 0xC0C10040), (.sdDmaCtrl, 0xC0C10070), (.sdDmaAddr, 0xC0C10080), (.sdDmaCount, 0xC0C10084),
   (.sdDmaProgress, 0xC0C10088)]

/-- The offsets of the EDMAC configuration registers in `TC`. -/
def Config.tcEdmOff : EdmacReg → Nat
  | .addr => 0x08
  | .flags => 0x0C
  | .sizeA => 0x10
  | .offA => 0x14
  | .sizeB => 0x18
  | .offB => 0x1C
  | .sizeN => 0x20
  | .offN => 0x24
  | .byteOff => 0x28

/-- EDMAC channel registers of `TC`. -/
def Config.tcEdmac (ch : Nat) : List (RegName × Word) :=
  (.edmCtrl ch, Config.tcAt 0xC0F04000 0x40 ch 0) ::
    [EdmacReg.addr, .flags, .sizeA, .offA, .sizeB, .offB, .sizeN, .offN, .byteOff].map
      (fun r => (RegName.edm r ch, Config.tcAt 0xC0F04000 0x40 ch (Config.tcEdmOff r)))

/-- Display registers of `TC`. -/
def Config.tcDisplay : List (RegName × Word) :=
  (.bmpAddr, 0xC0F14080) :: (.yuvAddr, 0xC0F14084) ::
    ((List.range 16).map (fun i => (RegName.pal4 i, Config.tcAt 0xC0F14400 4 i 0)) ++
     (List.range 256).map (fun i => (RegName.pal8 i, Config.tcAt 0xC0F14800 4 i 0)))

/-- `AddrMap` of `TC`, by rising address. -/
def Config.tcAddrMap : List (RegName × Word) :=
  List.flatten [Config.tcIc, (List.range 4).flatMap Config.tcTimer, [(RegName.clock, (0xC0242014 : Word))],
    (List.range 8).flatMap Config.tcHpt, [(RegName.hptStatus, (0xC0243300 : Word))], Config.tcCf,
    (List.range 2).flatMap Config.tcDma, Config.tcSd, (List.range 24).flatMap Config.tcEdmac, Config.tcDisplay]

/-- `Handlers` of `TC`, in its order; `TC` gives no parameter (notes/assumptions/27.md). -/
def Config.tcHandlers : List Handler :=
  [⟨"IC", 0xC0201000, 0xC02012FF, .ic, 0⟩, ⟨"TIMER", 0xC0210000, 0xC02103FF, .timer, 0⟩,
   ⟨"HPTIMER", 0xC0242000, 0xC0243FFF, .hptimer, 0⟩, ⟨"DMA", 0xC0A00000, 0xC0A001FF, .dma, 0⟩,
   ⟨"EDMAC", 0xC0F04000, 0xC0F045FF, .edmac, 0⟩, ⟨"CHSW", 0xC0F05000, 0xC0F053FF, .chsw, 0⟩,
   ⟨"SDIO", 0xC0C10000, 0xC0C100FF, .sdio, 0⟩, ⟨"CF", 0xC0600000, 0xC062FFFF, .cf, 0⟩,
   ⟨"FLASH0", 0xF8000000, 0xF8001FFF, .flash 0, 0⟩, ⟨"FLASH1", 0xF0000000, 0xF0001FFF, .flash 1, 0⟩,
   ⟨"DISPLAY", 0xC0F14000, 0xC0F14FFF, .display, 0⟩, ⟨"MODELCONST", 0xC0400000, 0xC04000FF, .modelConst, 0⟩]

/-- The test configuration `TC`, its ROM images all erased (the spec gives `TC` no images). -/
def Config.tc : Cfg where
  addrMap := Config.tcAddrMap
  handlers := Config.tcHandlers
  knownRegions := [(0xC0000000, 0xCFFFFFFF)]
  modelConst := [(0xC0400008, 0x12)]
  maxIrq := 0x80
  irqIdShift := 0
  nTimers := 4
  osTimerCh := 2
  osTimerIrq := 0x0A
  clockStep := 0x100
  clockMod := 0x100000
  hptIrq := 0x10
  hptOneshot := false
  dmaIrq := [0x2F, 0x74]
  dmaK := 16
  dmaBlock := 0x20
  edmac := (List.range 24).map (fun ch =>
    ⟨decide (ch < 8), if ch = 0 then some 0x5D else if ch = 4 then some 0x5E else if ch = 8 then some 0x5F else none⟩)
  chswR0 := ⟨0xC0F05000, (List.range 16).map (fun j => if 2 ≤ j then some (j + 6) else none)⟩
  chswR1 := ⟨0xC0F05100, [some 22, some 23]⟩
  chswW0 := ⟨0xC0F05200, [some 4, some 5, some 6, some 7]⟩
  chswW1 := ⟨0xC0F05300, [some 0, some 1, some 2, some 3]⟩
  sdIrq := 0x4A
  sdStDone := 0
  sdStData := 1
  sdStErr := 15
  sdPack := .lanes ([some 3, some 2, some 1, some 0] ++ List.replicate 12 none)
    ((List.range 15).map (fun m => some (14 - m)) ++ [none])
  cfAtaBase := 0xC0620000
  cfAtaLast := 0xC06200FF
  cfStatusOff := 0x1C
  cfIrq := 0x35
  cfDmaIrq := 0x36
  cfDmaWriteCmd := 0xCA
  cfSliceWords := 2
  banks := [⟨0xF8000000, 0x2000, []⟩, ⟨0xF0000000, 0x2000, []⟩]
  flashSmEnabled := true
  flashCmdMask := 0xFFFFFFFF
  flashBlockSize := 0x1000
  flashBusyReads := 4
  flashToggle0 := 0x0000
  flashToggle1 := 0x0040
  bmpW := 4
  bmpH := 4
  bmpPitch := 4
  yuvW := 2
  yuvH := 2
  yuvPitch := 4
  yuvLayout := ⟨0, 1, 2, 3⟩
  yuvMatrix := .bt601
  tickPeriod := 0

end Sys2Proof
end

