-- ==== Sys2Proof/Syntax.lean ====
section
/-! DEFINITION. The operations of the block, one constructor per row of spec/opcode_table.json (spec/30_encoding.md
rule R101), and the transactions of rule R90 that select them. An operation carries the operands its row names: the
instance number that the address selects, the value written, the byte offset in a window. -/

namespace Sys2Proof

/-- SD_DMAREG and CF_DMAREG name an address register and a byte-count register (R262, R284). -/
inductive DmaReg where
  | addr | count
  deriving DecidableEq, Repr

/-- PLANE_ADDR names the bitmap and the YUV plane register (R352). -/
inductive Plane where
  | bmp | yuv
  deriving DecidableEq, Repr

/-- The operations of the block (R101). `a` is an absolute address, `v` the value written, `n`, `c`, `ch`, `i`, `k`
an instance number, `b` a ROM bank and `off` a byte offset in its window. -/
inductive Instr where
  -- dispatcher (41_dispatcher.md)
  | accUnknownR (a : Word)
  | accUnknownW (a v : Word)
  | accDefaultR (a : Word)
  | accDefaultW (a v : Word)
  | accUnmodeledR (a : Word)
  | accUnmodeledW (a v : Word)
  | modelConstR (a : Word)
  -- interrupt controller (42_interrupt_controller.md)
  | icTrigger (id delay : Word)
  | icAck
  | icEnableW (v : Word)
  | icDisableW (k : Nat) (v : Word)
  | icTickWalk
  -- timers (43_timers.md)
  | tmrCtrlW (n : Nat) (v : Word)
  | tmrCtrlR (n : Nat)
  | tmrReloadW (n : Nat) (v : Word)
  | tmrReloadR (n : Nat)
  | tmrValueR (n : Nat)
  | clockR
  | tmrTick
  | hptCmpW (n : Nat) (v : Word)
  | hptCmpR (n : Nat)
  | hptCtrlW (n : Nat) (v : Word)
  | hptCtrlR (n : Nat)
  | hptStatusR
  | hptStatusW (v : Word)
  | hptTick
  -- DMA (44_dma.md)
  | dmaSrcW (c : Nat) (v : Word)
  | dmaSrcR (c : Nat)
  | dmaDstW (c : Nat) (v : Word)
  | dmaDstR (c : Nat)
  | dmaCountW (c : Nat) (v : Word)
  | dmaCountR (c : Nat)
  | dmaStart (c : Nat) (v : Word)
  -- EDMAC (45_edmac.md)
  | edmRegW (r : EdmacReg) (ch : Nat) (v : Word)
  | edmRegR (r : EdmacReg) (ch : Nat)
  | edmStart (ch : Nat) (v : Word)
  | chswRW (second : Bool) (off : Nat) (v : Word)
  | chswWW (second : Bool) (off : Nat) (v : Word)
  | chswRead (a : Word)
  -- SDIO and CF/ATA (46_storage.md)
  | sdCmdloW (v : Word)
  | sdCmdloR
  | sdCmdhiW (v : Word)
  | sdCmdhiR
  | sdDmaregW (r : DmaReg) (v : Word)
  | sdDmaregR (r : DmaReg)
  | sdDmactrlW (v : Word)
  | sdDmactrlR
  | sdIssue (v : Word)
  | sdRespR (i : Nat)
  | sdProgressR
  | sdIrqenW (v : Word)
  | sdIrqenR
  | sdStatusR
  | cfAtaR (off : Nat)
  | cfAtaW (off : Nat) (v : Word)
  | cfStatusR
  | cfIdeDone
  | cfIntstatR
  | cfDmaregW (r : DmaReg) (v : Word)
  | cfDmaregR (r : DmaReg)
  | cfDmaenW (v : Word)
  | cfDmaenR
  | cfDmaReq (v : Word)
  | cfDmaSlice
  | cfDmaIrq
  -- flash (47_flash.md)
  | flRead (b off : Nat)
  | flBusyRead (b off : Nat)
  | flUnlock1 (b off : Nat) (v : Word)
  | flUnlock2 (b off : Nat) (v : Word)
  | flCmdProgram (b off : Nat) (v : Word)
  | flCmdErase (b off : Nat) (v : Word)
  | flEraseUnlock1 (b off : Nat) (v : Word)
  | flEraseUnlock2 (b off : Nat) (v : Word)
  | flChipErase (b off : Nat) (v : Word)
  | flBlockErase (b off : Nat) (v : Word)
  | flBypassEraseEntry (b off : Nat) (v : Word)
  | flBypassProgramEntry (b off : Nat) (v : Word)
  | flBypassChipErase (b off : Nat) (v : Word)
  | flBypassBlockErase (b off : Nat) (v : Word)
  | flProgramData (b off : Nat) (v : Word)
  | flBadCycle (b off : Nat) (v : Word)
  | flPassR (b off : Nat)
  | flPassW (b off : Nat) (v : Word)
  -- display and ticker (48_compositor_ticker.md)
  | pal4W (i : Nat) (v : Word)
  | pal4R (i : Nat)
  | pal8W (i : Nat) (v : Word)
  | pal8R (i : Nat)
  | planeAddrW (p : Plane) (v : Word)
  | planeAddrR (p : Plane)
  | dispCompose
  | dispInvalidate
  | tick
  | hostHalt
  | hostRelease
  deriving DecidableEq, Repr

/-- What a TICK transaction asks for: the ticker's next atomic step (R370), or one of the sub-steps that the opcode
table lists as rows of their own. The spec gives the sub-steps no field (notes/assumptions/8.md). -/
inductive TickOp where
  | run | tmrTick | hptTick | icTickWalk | cfDmaSlice | cfDmaIrq
  deriving DecidableEq, Repr

/-- The `kind` of a HOST transaction (R90). -/
inductive HostOp where
  | compose | invalidate | halt | release
  deriving DecidableEq, Repr

/-- The transactions the block accepts (R90), and the IDE collaborator's completion event (R281). -/
inductive Transaction where
  | acc (addr : Word) (write : Bool) (value : Word)
  | trig (id delay : Word)
  | tick (op : TickOp)
  | host (op : HostOp)
  | ideDone
  deriving DecidableEq, Repr

end Sys2Proof
end

