-- ==== Sys2Proof/WellFormed.lean ====
section
/-! DEFINITION. Well-formedness: the configuration conditions of spec/70_reset_and_hazards.md rule R433 (`Cfg.wf`),
and the operand ranges of an operation under a configuration (`Instr.wf`, spec/30_encoding.md rule R92). -/

namespace Sys2Proof

/-! ## Configurations (R433) -/

/-- Range `h` contains range `g`. -/
def Handler.contains (h g : Handler) : Bool := decide (h.lo ≤ g.lo) && decide (g.hi ≤ h.hi)

/-- No range of the list follows a range containing it (R121). -/
def handlersOrdered : List Handler → Bool
  | [] => true
  | h :: rest => rest.all (fun g => !h.contains g) && handlersOrdered rest

/-- The addresses of the list rise strictly: no two registers share one (R91). -/
def addrMapRising : List (RegName × Word) → Bool
  | [] => true
  | [_] => true
  | e :: f :: rest => decide (e.2 < f.2) && addrMapRising (f :: rest)

/-- The offsets of a cell list rise strictly. -/
def cellsRising : List Host.Cell → Bool
  | [] => true
  | [_] => true
  | e :: f :: rest => decide (e.1 < f.1) && cellsRising (f :: rest)

/-- The canonical form of a memory whose addresses are below `limit`: an unlisted byte reads as `dflt` and no entry
holds that value, or (`none`) the list says nothing of an unlisted byte. -/
def cellsCanonical (dflt : Option Byte) (limit : Nat) (m : List Host.Cell) : Bool :=
  cellsRising m && m.all (fun e => decide (some e.2 ≠ dflt) && decide (e.1 < limit))

/-- The code of an EDMAC configuration register. -/
def EdmacReg.code : EdmacReg → Nat
  | .addr => 0
  | .flags => 1
  | .sizeA => 2
  | .offA => 3
  | .sizeB => 4
  | .offB => 5
  | .sizeN => 6
  | .offN => 7
  | .byteOff => 8

/-- A number of its own for every register: its row in R92 below 64, its instance above. -/
def RegName.code : RegName → Nat
  | .icCurrent => 0
  | .icEnable => 1
  | .icDisable k => 2 + 64 * k
  | .clock => 3
  | .tmrCtrl n => 4 + 64 * n
  | .tmrReload n => 5 + 64 * n
  | .tmrValue n => 6 + 64 * n
  | .hptCmp n => 7 + 64 * n
  | .hptCtrl n => 8 + 64 * n
  | .hptStatus => 9
  | .dmaSrc c => 10 + 64 * c
  | .dmaDst c => 11 + 64 * c
  | .dmaCount c => 12 + 64 * c
  | .dmaCtrl c => 13 + 64 * c
  | .edmCtrl ch => 14 + 64 * ch
  | .edm r ch => 15 + r.code + 64 * ch
  | .sdCmdLo => 24
  | .sdCmdHi => 25
  | .sdCmdFlags => 26
  | .sdResp i => 27 + 64 * i
  | .sdStatus => 28
  | .sdDmaAddr => 29
  | .sdDmaCount => 30
  | .sdDmaProgress => 31
  | .sdDmaCtrl => 32
  | .sdIrqEn => 33
  | .cfIntStatus => 34
  | .cfDmaAddr => 35
  | .cfDmaCount => 36
  | .cfDmaEn => 37
  | .cfDmaCtrl => 38
  | .pal4 i => 39 + 64 * i
  | .pal8 i => 40 + 64 * i
  | .bmpAddr => 41
  | .yuvAddr => 42

/-- The named registers that exist under a configuration (R92). -/
def Cfg.registers (c : Cfg) : List RegName :=
  List.flatten
    [[.icCurrent, .icEnable, .clock, .hptStatus, .sdCmdLo, .sdCmdHi, .sdCmdFlags, .sdStatus, .sdDmaAddr, .sdDmaCount,
       .sdDmaProgress, .sdDmaCtrl, .sdIrqEn, .cfIntStatus, .cfDmaAddr, .cfDmaCount, .cfDmaEn, .cfDmaCtrl, .bmpAddr,
       .yuvAddr],
     (List.range c.nIcDisable).map .icDisable,
     (List.range c.nTimers).flatMap (fun n => [.tmrCtrl n, .tmrReload n, .tmrValue n]),
     (List.range Config.nHpt).flatMap (fun n => [.hptCmp n, .hptCtrl n]),
     (List.range c.nDma).flatMap (fun n => [.dmaSrc n, .dmaDst n, .dmaCount n, .dmaCtrl n]),
     (List.range c.nEdmac).flatMap (fun ch =>
       .edmCtrl ch :: [EdmacReg.addr, .flags, .sizeA, .offA, .sizeB, .offB, .sizeN, .offN, .byteOff].map (.edm · ch)),
     (List.range 4).map .sdResp, (List.range 16).map .pal4, (List.range 256).map .pal8]

/-- The set of the codes of a list, as the bits of a number. -/
def codeSet (l : List Nat) : Nat := l.foldl (fun acc n => acc ||| 1 <<< n) 0

/-- No number stands twice in the list, and none of them in the set `seen`. -/
def allDistinct : List Nat → Nat → Bool
  | [], _ => true
  | n :: rest, seen => !seen.testBit n && allDistinct rest (seen ||| 1 <<< n)

/-- `AddrMap` is a function on the named registers (R7, R91): every one of them has an address, and one only. -/
def Cfg.namesOk (c : Cfg) : Bool :=
  let codes := c.addrMap.map (·.1.code)
  allDistinct codes 0 && (codeSet codes == codeSet (c.registers.map RegName.code))

/-- A range of addresses that is decoded by range: its first address and its size in bytes. -/
structure Window where
  first : Nat
  size : Nat
  deriving DecidableEq, Repr

/-- Two windows share no address. -/
def Window.disjoint (x y : Window) : Bool :=
  decide (x.size = 0) || decide (y.size = 0) || decide (x.first + x.size ≤ y.first) || decide (y.first + y.size ≤ x.first)

/-- The windows of a list are pairwise disjoint. -/
def windowsDisjoint : List Window → Bool
  | [] => true
  | x :: rest => rest.all x.disjoint && windowsDisjoint rest

/-- The window of a bank (R310). -/
def BankCfg.window (x : BankCfg) : Window := ⟨x.base.toNat, x.size⟩

/-- The slots of a channel-switch sub-range (R237). -/
def ChswCfg.window (x : ChswCfg) : Window := ⟨x.base.toNat, 4 * x.map.length⟩

/-- `CF_ATA_WIN` (R280). -/
def Cfg.ataWindow (c : Cfg) : Window := ⟨c.cfAtaBase.toNat, c.cfAtaLast.toNat + 1 - c.cfAtaBase.toNat⟩

/-- The registers that R91 decodes by range: the ATA window, the channel-switch sub-ranges, the model constants, the
bank windows. -/
def Cfg.windows (c : Cfg) : List Window :=
  [c.ataWindow, c.chswR0.window, c.chswR1.window, c.chswW0.window, c.chswW1.window] ++
    c.modelConst.map (fun e => ⟨e.1.toNat, 1⟩) ++ c.banks.map BankCfg.window

/-- No two registers share an address (R91), where one of them is decoded by range: the windows are inside the address
space and disjoint, and no named register's address is in one (notes/assumptions/29.md). -/
def Cfg.windowsOk (c : Cfg) : Bool :=
  c.windows.all (fun x => decide (x.first + x.size ≤ 2 ^ 32)) && windowsDisjoint c.windows &&
    c.addrMap.all (fun e => c.windows.all (fun x => x.disjoint ⟨e.2.toNat, 1⟩))

/-- For every bank there is one FLASH handler, whose range is the bank's window, and no other FLASH handler (R310). -/
def Cfg.flashHandlersOk (c : Cfg) : Bool :=
  (List.range c.nBanks).all (fun b =>
    (c.handlers.filter (fun h => h.kind == .flash b)).map (fun h => (h.lo.toNat, h.hi.toNat + 1)) ==
      [((c.bankBase b).toNat, (c.bankBase b).toNat + c.bankSize b)]) &&
    c.handlers.all (fun h =>
      match h.kind with
      | .flash b => decide (b < c.nBanks)
      | _ => true)

/-- One bank: an even size, a window inside the address space, an image that fits it (R67, R311). -/
def BankCfg.wf (x : BankCfg) : Bool :=
  decide (x.size % 2 = 0) && decide (x.base.toNat + x.size ≤ 2 ^ 32) && cellsCanonical (some Config.erasedByte) x.size x.image

/-- Every configured interrupt id. -/
def Cfg.irqIds (c : Cfg) : List Word :=
  [c.osTimerIrq, c.hptIrq, c.sdIrq, c.cfIrq, c.cfDmaIrq] ++ c.dmaIrq ++ c.edmac.filterMap (·.irq)

/-- Every configured interrupt id is below `MAX_IRQ`. -/
def Cfg.idsOk (c : Cfg) : Bool := c.irqIds.all (fun id => decide (id.toNat < c.maxIrq))

/-- The timer parameters: the OS channel exists, and `CLOCK_MOD` is a positive multiple of `CLOCK_STEP` that a
`u32` clock can run through (R27, R180). -/
def Cfg.timersOk (c : Cfg) : Bool :=
  decide (c.osTimerCh < c.nTimers) && decide (1 ≤ c.clockStep) && decide (0 < c.clockMod) &&
    decide (c.clockMod % c.clockStep = 0) && decide (c.clockMod ≤ 2 ^ 32)

/-- The DMA, EDMAC and CF parameters. -/
def Cfg.enginesOk (c : Cfg) : Bool :=
  decide (1 ≤ c.dmaK) && decide (1 ≤ c.dmaBlock) && decide (24 ≤ c.nEdmac) && decide (1 ≤ c.cfSliceWords) &&
    decide (c.cfDmaWriteCmd ≠ Config.cfDmaReadCmd) && decide (c.cfAtaBase.toNat + c.cfStatusOff ≤ c.cfAtaLast.toNat)

/-- The SDIO status bits are distinct and in [0, 31]. -/
def Cfg.sdOk (c : Cfg) : Bool :=
  decide (c.sdStDone ≠ c.sdStData) && decide (c.sdStDone ≠ c.sdStErr) && decide (c.sdStData ≠ c.sdStErr) &&
    decide (c.sdStDone ≤ 31) && decide (c.sdStData ≤ 31) && decide (c.sdStErr ≤ 31)

/-- The flash parameters and banks. -/
def Cfg.flashOk (c : Cfg) : Bool :=
  decide (c.flashBusyReads ≤ 16) && decide (2 ≤ c.flashBlockSize) && decide (c.flashBlockSize % 2 = 0) &&
    c.banks.all BankCfg.wf && windowsDisjoint (c.banks.map BankCfg.window)

/-- One size divides the other (R353); 0, a multiple of every size, passes, and its plane has no sample
(notes/assumptions/28.md). -/
def integerRatio (x y : Nat) : Bool := decide (x % y = 0) || decide (y % x = 0)

/-- U, Y0, V and Y1 stand at four different places of the four bytes that two pixels share (R353). -/
def YuvLayout.wf (l : YuvLayout) : Bool :=
  [l.u, l.y0, l.v, l.y1].all (fun i => decide (i < 4)) && decide [l.u, l.y0, l.v, l.y1].Nodup

/-- The plane geometry of R353. -/
def Cfg.planesOk (c : Cfg) : Bool :=
  decide (c.bmpW ≤ c.bmpPitch) && decide (c.yuvW % 2 = 0) && decide (2 * c.yuvW ≤ c.yuvPitch) &&
    integerRatio c.bmpW c.yuvW && integerRatio c.bmpH c.yuvH && c.yuvLayout.wf

/-- The conditions of R433, with the collisions of R91 and the bank handlers of R310: a configuration that breaks one
is refused, and no machine exists. -/
def Cfg.wf (c : Cfg) : Bool :=
  handlersOrdered c.handlers && c.idsOk && c.timersOk && c.enginesOk && c.sdOk && c.flashOk && c.flashHandlersOk &&
    c.planesOk && addrMapRising c.addrMap && c.namesOk && c.windowsOk

/-! ## Operations -/

/-- Byte offset `off` is inside bank `b` (R310). -/
def Cfg.inBank (c : Cfg) (b off : Nat) : Bool := decide (b < c.nBanks) && decide (off < c.bankSize b)

/-- Byte offset `off` is inside `CF_ATA_WIN` (R280). -/
def Cfg.inAtaWin (c : Cfg) (off : Nat) : Bool := decide (c.cfAtaBase.toNat + off ≤ c.cfAtaLast.toNat)

/-- Byte offset `off` is inside the slots of a channel-switch sub-range (R237). -/
def Cfg.inChsw (c : Cfg) (s : ChswSub) (off : Nat) : Bool := decide (off < 4 * (c.chsw s).map.length)

/-- The operand ranges of an operation: its instance exists (R92), its offset is inside its window, its value is one
its row lists. What selects it besides its operands (the handler ranges, the bank's state) is the decoder's. -/
def Instr.wf (c : Cfg) : Instr → Bool
  | .accUnknownR _ => true
  | .accUnknownW _ _ => true
  | .accDefaultR _ => true
  | .accDefaultW _ _ => true
  | .accUnmodeledR _ => true
  | .accUnmodeledW _ _ => true
  | .modelConstR a => c.modelConst.any (fun e => e.1 == a)
  | .icTrigger _ _ => true
  | .icAck => true
  | .icEnableW _ => true
  | .icDisableW k _ => decide (k < c.nIcDisable)
  | .icTickWalk => true
  | .tmrCtrlW n _ => decide (n < c.nTimers)
  | .tmrCtrlR n => decide (n < c.nTimers)
  | .tmrReloadW n _ => decide (n < c.nTimers)
  | .tmrReloadR n => decide (n < c.nTimers)
  | .tmrValueR n => decide (n < c.nTimers)
  | .clockR => true
  | .tmrTick => true
  | .hptCmpW n _ => decide (n < Config.nHpt)
  | .hptCmpR n => decide (n < Config.nHpt)
  | .hptCtrlW n _ => decide (n < Config.nHpt)
  | .hptCtrlR n => decide (n < Config.nHpt)
  | .hptStatusR => true
  | .hptStatusW _ => true
  | .hptTick => true
  | .dmaSrcW ch _ => decide (ch < c.nDma)
  | .dmaSrcR ch => decide (ch < c.nDma)
  | .dmaDstW ch _ => decide (ch < c.nDma)
  | .dmaDstR ch => decide (ch < c.nDma)
  | .dmaCountW ch _ => decide (ch < c.nDma)
  | .dmaCountR ch => decide (ch < c.nDma)
  | .dmaStart ch _ => decide (ch < c.nDma)
  | .edmRegW _ ch _ => decide (ch < c.nEdmac)
  | .edmRegR _ ch => decide (ch < c.nEdmac)
  | .edmStart ch _ => decide (ch < c.nEdmac)
  | .chswRW second off _ => c.inChsw (if second then .r1 else .r0) off
  | .chswWW second off _ => c.inChsw (if second then .w1 else .w0) off
  | .chswRead _ => true
  | .sdCmdloW _ => true
  | .sdCmdloR => true
  | .sdCmdhiW _ => true
  | .sdCmdhiR => true
  | .sdDmaregW _ _ => true
  | .sdDmaregR _ => true
  | .sdDmactrlW _ => true
  | .sdDmactrlR => true
  | .sdIssue _ => true
  | .sdRespR i => decide (i < 4)
  | .sdProgressR => true
  | .sdIrqenW _ => true
  | .sdIrqenR => true
  | .sdStatusR => true
  | .cfAtaR off => c.inAtaWin off && decide (off ≠ c.cfStatusOff)
  | .cfAtaW off _ => c.inAtaWin off
  | .cfStatusR => true
  | .cfIdeDone => true
  | .cfIntstatR => true
  | .cfDmaregW _ _ => true
  | .cfDmaregR _ => true
  | .cfDmaenW _ => true
  | .cfDmaenR => true
  | .cfDmaReq v => decide (v = Config.cfDmaReadCmd) || decide (v = c.cfDmaWriteCmd)
  | .cfDmaSlice => true
  | .cfDmaIrq => true
  | .flRead b off => c.flashSmEnabled && c.inBank b off
  | .flBusyRead b off => c.flashSmEnabled && c.inBank b off
  | .flUnlock1 b off _ => c.flashSmEnabled && c.inBank b off
  | .flUnlock2 b off _ => c.flashSmEnabled && c.inBank b off
  | .flCmdProgram b off _ => c.flashSmEnabled && c.inBank b off
  | .flCmdErase b off _ => c.flashSmEnabled && c.inBank b off
  | .flEraseUnlock1 b off _ => c.flashSmEnabled && c.inBank b off
  | .flEraseUnlock2 b off _ => c.flashSmEnabled && c.inBank b off
  | .flChipErase b off _ => c.flashSmEnabled && c.inBank b off
  | .flBlockErase b off _ => c.flashSmEnabled && c.inBank b off
  | .flBypassEraseEntry b off _ => c.flashSmEnabled && c.inBank b off
  | .flBypassProgramEntry b off _ => c.flashSmEnabled && c.inBank b off
  | .flBypassChipErase b off _ => c.flashSmEnabled && c.inBank b off
  | .flBypassBlockErase b off _ => c.flashSmEnabled && c.inBank b off
  | .flProgramData b off _ => c.flashSmEnabled && c.inBank b off
  | .flBadCycle b off _ => c.flashSmEnabled && c.inBank b off
  | .flPassR b off => !c.flashSmEnabled && c.inBank b off
  | .flPassW b off _ => !c.flashSmEnabled && c.inBank b off
  | .pal4W i _ => decide (i < 16)
  | .pal4R i => decide (i < 16)
  | .pal8W i _ => decide (i < 256)
  | .pal8R i => decide (i < 256)
  | .planeAddrW _ _ => true
  | .planeAddrR _ => true
  | .dispCompose => true
  | .dispInvalidate => true
  | .tick => true
  | .hostHalt => true
  | .hostRelease => true

end Sys2Proof
end

