-- ==== Sys2Proof/Decode.lean ====
section
/-! DEFINITION. Decoding: from the bytes of a request to a transaction (spec/30_encoding.md rule R90), and from a
transaction to the operation it selects (rules R91, R92, R121, R122 of spec/30_encoding.md and
spec/41_dispatcher.md; R329 of spec/47_flash.md for flash cycles). After it the encoder, the other way.

The spec gives a transaction's fields and their widths but no bits: the byte layout of a request is the model's own
(DESIGN CHOICE, notes/assumptions/8.md). Which operation an access selects depends on the configuration and on the
state of the flash banks, so the decoder reads a `View` of the machine. -/

namespace Sys2Proof

/-! ## Byte order (R12) -/

/-- `le32` (R12): byte 0 is the least significant. -/
def le32 (b0 b1 b2 b3 : Byte) : Word := b3 ++ b2 ++ b1 ++ b0

/-- `le16` (R12). -/
def le16 (b0 b1 : Byte) : Half := b1 ++ b0

/-- `bytes_le32` (R12). -/
def bytesLe32 (v : Word) : List Byte :=
  [v.extractLsb' 0 8, v.extractLsb' 8 8, v.extractLsb' 16 8, v.extractLsb' 24 8]

/-! ## Requests: a transaction as nine bytes -/

/-- Why a request is no transaction. -/
inductive DecodeError where
  | length (n : Nat)
  | format (code : Byte)
  | tickOp (code : Byte)
  | hostOp (code : Byte)
  | reserved
  deriving DecidableEq, Repr

/-- The number of bytes of a request. -/
def requestBytes : Nat := 9

/-- The code byte of a TICK transaction's sub-step. -/
def TickOp.code : TickOp → Byte
  | .run => 0
  | .tmrTick => 1
  | .hptTick => 2
  | .icTickWalk => 3
  | .cfDmaSlice => 4
  | .cfDmaIrq => 5

/-- The sub-step of a code byte. -/
def tickOpOf (x : Byte) : Option TickOp :=
  if x = 0 then some .run else if x = 1 then some .tmrTick else if x = 2 then some .hptTick
  else if x = 3 then some .icTickWalk else if x = 4 then some .cfDmaSlice else if x = 5 then some .cfDmaIrq else none

/-- The code byte of a HOST transaction's kind. -/
def HostOp.code : HostOp → Byte
  | .compose => 0
  | .invalidate => 1
  | .halt => 2
  | .release => 3

/-- The kind of a code byte. -/
def hostOpOf (x : Byte) : Option HostOp :=
  if x = 0 then some .compose else if x = 1 then some .invalidate else if x = 2 then some .halt
  else if x = 3 then some .release else none

/-- The two 32-bit fields of a request after its format byte, and the transaction they make. Format 0 is an ACC
read (its value argument is ignored, R62), 1 an ACC write, 2 TRIG, 3 TICK, 4 HOST, 5 the IDE completion event. -/
def transactionOf (code : Byte) (x y : Word) : Except DecodeError Transaction :=
  if code = 0 then .ok (.acc x false 0)
  else if code = 1 then .ok (.acc x true y)
  else if code = 2 then .ok (.trig x y)
  else if code = 3 then
    match tickOpOf (x.setWidth 8) with
    | none => .error (.tickOp (x.setWidth 8))
    | some op => if x >>> 8 = 0 ∧ y = 0 then .ok (.tick op) else .error .reserved
  else if code = 4 then
    match hostOpOf (x.setWidth 8) with
    | none => .error (.hostOp (x.setWidth 8))
    | some op => if x >>> 8 = 0 ∧ y = 0 then .ok (.host op) else .error .reserved
  else if code = 5 then (if x = 0 ∧ y = 0 then .ok .ideDone else .error .reserved)
  else .error (.format code)

/-- Decode the bytes of a request, total on any bytes. -/
def decodeRequest : List Byte → Except DecodeError Transaction
  | [f, a0, a1, a2, a3, v0, v1, v2, v3] => transactionOf f (le32 a0 a1 a2 a3) (le32 v0 v1 v2 v3)
  | bytes => .error (.length bytes.length)

/-! ## The dispatcher (R121 to R126) -/

/-- What decoding reads of the machine: the configuration, and the state of each flash bank (R329). -/
structure View where
  cfg : Cfg
  flash : List FlashState
  deriving DecidableEq, Repr

/-- The state of bank `b` (READ for a bank that does not exist). -/
def View.flashState (w : View) (b : Nat) : FlashState := (w.flash[b]?).getD .read

/-- `a` is in the inclusive range `[lo, hi]`. -/
def inRange (lo hi a : Word) : Bool := decide (lo ≤ a) && decide (a ≤ hi)

/-- Handler selection (R121): the first handler in list order whose range contains the address. -/
def selectHandler (c : Cfg) (a : Word) : Option Handler := c.handlers.find? (fun h => inRange h.lo h.hi a)

/-- The address is in a known region (R123). -/
def known (c : Cfg) (a : Word) : Bool := c.knownRegions.any (fun r => inRange r.1 r.2 a)

/-- `MODEL_CONST(a)` (R125). -/
def modelConstAt (c : Cfg) (a : Word) : Option Word := (c.modelConst.find? (fun e => e.1 == a)).map (·.2)

/-- The kinds of handler that know a register. CLOCK belongs to the timers; both timer kinds know it. -/
def RegName.inKind (k : Kind) : RegName → Bool
  | .icCurrent | .icEnable | .icDisable _ => k == .ic
  | .clock => k == .timer || k == .hptimer
  | .tmrCtrl _ | .tmrReload _ | .tmrValue _ => k == .timer
  | .hptCmp _ | .hptCtrl _ | .hptStatus => k == .hptimer
  | .dmaSrc _ | .dmaDst _ | .dmaCount _ | .dmaCtrl _ => k == .dma
  | .edm _ _ | .edmCtrl _ => k == .edmac
  | .sdCmdLo | .sdCmdHi | .sdCmdFlags | .sdResp _ | .sdStatus => k == .sdio
  | .sdDmaAddr | .sdDmaCount | .sdDmaProgress | .sdDmaCtrl | .sdIrqEn => k == .sdio
  | .cfIntStatus | .cfDmaAddr | .cfDmaCount | .cfDmaEn | .cfDmaCtrl => k == .cf
  | .pal4 _ | .pal8 _ | .bmpAddr | .yuvAddr => k == .display

/-- The register instance exists under the configuration (R92). -/
def RegName.present (c : Cfg) : RegName → Bool
  | .icDisable k => decide (k < c.nIcDisable)
  | .tmrCtrl n | .tmrReload n | .tmrValue n => decide (n < c.nTimers)
  | .hptCmp n | .hptCtrl n => decide (n < Config.nHpt)
  | .dmaSrc n | .dmaDst n | .dmaCount n | .dmaCtrl n => decide (n < c.nDma)
  | .edm _ ch | .edmCtrl ch => decide (ch < c.nEdmac)
  | .sdResp i => decide (i < 4)
  | .pal4 i => decide (i < 16)
  | .pal8 i => decide (i < 256)
  | _ => true

/-- The register that an address selects inside a handler of kind `k` (R91): the one at exactly that address. -/
def regAt (c : Cfg) (k : Kind) (a : Word) : Option RegName :=
  match c.addrMap.find? (fun e => e.2 == a) with
  | some e => if e.1.inKind k && e.1.present c then some e.1 else none
  | none => none

/-- The operation that reads a register (R92); `none` for a write-only register. -/
def regReadOp : RegName → Option Instr
  | .icCurrent => some .icAck
  | .icEnable => none
  | .icDisable _ => none
  | .clock => some .clockR
  | .tmrCtrl n => some (.tmrCtrlR n)
  | .tmrReload n => some (.tmrReloadR n)
  | .tmrValue n => some (.tmrValueR n)
  | .hptCmp n => some (.hptCmpR n)
  | .hptCtrl n => some (.hptCtrlR n)
  | .hptStatus => some .hptStatusR
  | .dmaSrc c => some (.dmaSrcR c)
  | .dmaDst c => some (.dmaDstR c)
  | .dmaCount c => some (.dmaCountR c)
  | .dmaCtrl _ => none
  | .edm r ch => some (.edmRegR r ch)
  | .edmCtrl _ => none
  | .sdCmdLo => some .sdCmdloR
  | .sdCmdHi => some .sdCmdhiR
  | .sdCmdFlags => none
  | .sdResp i => some (.sdRespR i)
  | .sdStatus => some .sdStatusR
  | .sdDmaAddr => some (.sdDmaregR .addr)
  | .sdDmaCount => some (.sdDmaregR .count)
  | .sdDmaProgress => some .sdProgressR
  | .sdDmaCtrl => some .sdDmactrlR
  | .sdIrqEn => some .sdIrqenR
  | .cfIntStatus => some .cfIntstatR
  | .cfDmaAddr => some (.cfDmaregR .addr)
  | .cfDmaCount => some (.cfDmaregR .count)
  | .cfDmaEn => some .cfDmaenR
  | .cfDmaCtrl => none
  | .pal4 i => some (.pal4R i)
  | .pal8 i => some (.pal8R i)
  | .bmpAddr => some (.planeAddrR .bmp)
  | .yuvAddr => some (.planeAddrR .yuv)

/-- The operation that writes `v` to a register (R92); `none` for a read-only register and for a CF_DMA_CTRL value
that is neither DMA command (R100). -/
def regWriteOp (c : Cfg) (v : Word) : RegName → Option Instr
  | .icCurrent => none
  | .icEnable => some (.icEnableW v)
  | .icDisable k => some (.icDisableW k v)
  | .clock => none
  | .tmrCtrl n => some (.tmrCtrlW n v)
  | .tmrReload n => some (.tmrReloadW n v)
  | .tmrValue _ => none
  | .hptCmp n => some (.hptCmpW n v)
  | .hptCtrl n => some (.hptCtrlW n v)
  | .hptStatus => some (.hptStatusW v)
  | .dmaSrc n => some (.dmaSrcW n v)
  | .dmaDst n => some (.dmaDstW n v)
  | .dmaCount n => some (.dmaCountW n v)
  | .dmaCtrl n => some (.dmaStart n v)
  | .edm r ch => some (.edmRegW r ch v)
  | .edmCtrl ch => some (.edmStart ch v)
  | .sdCmdLo => some (.sdCmdloW v)
  | .sdCmdHi => some (.sdCmdhiW v)
  | .sdCmdFlags => some (.sdIssue v)
  | .sdResp _ => none
  | .sdStatus => none
  | .sdDmaAddr => some (.sdDmaregW .addr v)
  | .sdDmaCount => some (.sdDmaregW .count v)
  | .sdDmaProgress => none
  | .sdDmaCtrl => some (.sdDmactrlW v)
  | .sdIrqEn => some (.sdIrqenW v)
  | .cfIntStatus => none
  | .cfDmaAddr => some (.cfDmaregW .addr v)
  | .cfDmaCount => some (.cfDmaregW .count v)
  | .cfDmaEn => some (.cfDmaenW v)
  | .cfDmaCtrl => if v = Config.cfDmaReadCmd ∨ v = c.cfDmaWriteCmd then some (.cfDmaReq v) else none
  | .pal4 i => some (.pal4W i v)
  | .pal8 i => some (.pal8W i v)
  | .bmpAddr => some (.planeAddrW .bmp v)
  | .yuvAddr => some (.planeAddrW .yuv v)

/-- A register access in a handler of kind `k`: the register's operation, else an unmodeled access (R122, R124). -/
def decodeReg (c : Cfg) (k : Kind) (a : Word) (write : Bool) (v : Word) : Instr :=
  match regAt c k a with
  | none => if write then .accUnmodeledW a v else .accUnmodeledR a
  | some r =>
    if write then (regWriteOp c v r).getD (.accUnmodeledW a v) else (regReadOp r).getD (.accUnmodeledR a)

/-! ## Flash cycles (R95, R311, R329) -/

/-- The word offset of a cycle: `off >> 1` (R311). -/
def flashWoff (off : Nat) : Nat := off / 2

/-- The value of a cycle: `value[15:0]` (R311). -/
def flashValue (v : Word) : Half := v.setWidth 16

/-- The cycle's word offset matches the offset literal `l` under `FLASH_CMD_MASK` (R95). -/
def flashOffIs (c : Cfg) (off l : Nat) : Bool := (BitVec.ofNat 32 (flashWoff off) &&& c.flashCmdMask) == BitVec.ofNat 32 l

/-- The cycle is `(l, x)` (R95). -/
def flashCycleIs (c : Cfg) (off : Nat) (v : Word) (l : Nat) (x : Half) : Bool :=
  flashOffIs c off l && flashValue v == x

/-- The rows of the opcode table that a write to a bank can be. -/
inductive FlashWrite where
  | unlock1 | unlock2 | cmdProgram | cmdErase | eraseUnlock1 | eraseUnlock2 | chipErase | blockErase
  | bypassEraseEntry | bypassProgramEntry | bypassChipErase | bypassBlockErase | programData | badCycle | pass
  deriving DecidableEq, Repr

/-- The transition function R329 as a choice of row, its rows in priority order within a state; `pass` when the
state machine is disabled (R330). -/
def selectFlashWrite (c : Cfg) (st : FlashState) (off : Nat) (v : Word) : FlashWrite :=
  if c.flashSmEnabled then
    match st with
    | .read =>
      if flashCycleIs c off v 0x555 0xAA then .unlock1
      else if flashValue v = 0x80 then .bypassEraseEntry
      else if flashValue v = 0xA0 then .bypassProgramEntry
      else .badCycle
    | .unlock2 => if flashCycleIs c off v 0x2AA 0x55 then .unlock2 else .badCycle
    | .unlocked =>
      if flashCycleIs c off v 0x555 0xA0 then .cmdProgram
      else if flashCycleIs c off v 0x555 0x80 then .cmdErase
      else .badCycle
    | .erase1 => if flashCycleIs c off v 0x555 0xAA then .eraseUnlock1 else .badCycle
    | .erase2 => if flashCycleIs c off v 0x2AA 0x55 then .eraseUnlock2 else .badCycle
    | .erase3 =>
      if flashCycleIs c off v 0x555 0x10 then .chipErase
      else if flashValue v = 0x30 then .blockErase
      else .badCycle
    | .unlockBypassErase =>
      if flashValue v = 0x10 then .bypassChipErase
      else if flashValue v = 0x30 then .bypassBlockErase
      else .badCycle
    | .program => .programData
    | .unlockBypass => .badCycle
    | .unlockBypassReset => .badCycle
    | .blockEraseBusy => .badCycle
  else .pass

/-- The operation of a flash write row. -/
def FlashWrite.op (b off : Nat) (v : Word) : FlashWrite → Instr
  | .unlock1 => .flUnlock1 b off v
  | .unlock2 => .flUnlock2 b off v
  | .cmdProgram => .flCmdProgram b off v
  | .cmdErase => .flCmdErase b off v
  | .eraseUnlock1 => .flEraseUnlock1 b off v
  | .eraseUnlock2 => .flEraseUnlock2 b off v
  | .chipErase => .flChipErase b off v
  | .blockErase => .flBlockErase b off v
  | .bypassEraseEntry => .flBypassEraseEntry b off v
  | .bypassProgramEntry => .flBypassProgramEntry b off v
  | .bypassChipErase => .flBypassChipErase b off v
  | .bypassBlockErase => .flBypassBlockErase b off v
  | .programData => .flProgramData b off v
  | .badCycle => .flBadCycle b off v
  | .pass => .flPassW b off v

/-- The rows that a read of a bank can be. -/
inductive FlashRead where
  | data | busy | pass
  deriving DecidableEq, Repr

/-- Which row a read of a bank is: R330 when the state machine is disabled, else R328 in BLOCK_ERASE_BUSY and R312
in every other state. -/
def selectFlashRead (c : Cfg) (st : FlashState) : FlashRead :=
  if c.flashSmEnabled then (if st = .blockEraseBusy then .busy else .data) else .pass

/-- The operation of a flash read row. -/
def FlashRead.op (b off : Nat) : FlashRead → Instr
  | .data => .flRead b off
  | .busy => .flBusyRead b off
  | .pass => .flPassR b off

/-- An access in the handler of bank `b` (R310). -/
def decodeFlash (w : View) (b : Nat) (a : Word) (write : Bool) (v : Word) : Instr :=
  let off := (a - w.cfg.bankBase b).toNat
  if w.cfg.inBank b off then
    if write then (selectFlashWrite w.cfg (w.flashState b) off v).op b off v
    else (selectFlashRead w.cfg (w.flashState b)).op b off
  else if write then .accUnmodeledW a v else .accUnmodeledR a

/-! ## The channel switch and the CF window -/

/-- The byte offset of `a` in sub-range `s` when `a` is inside its slots (R237). -/
def chswOffset (c : Cfg) (s : ChswSub) (a : Word) : Option Nat :=
  let off := (a - (c.chsw s).base).toNat
  if c.inChsw s off then some off else none

/-- An access in the channel-switch handler (R237 to R239). -/
def decodeChsw (c : Cfg) (a : Word) (write : Bool) (v : Word) : Instr :=
  if write then
    match chswOffset c .r0 a, chswOffset c .r1 a, chswOffset c .w0 a, chswOffset c .w1 a with
    | some off, _, _, _ => .chswRW false off v
    | none, some off, _, _ => .chswRW true off v
    | none, none, some off, _ => .chswWW false off v
    | none, none, none, some off => .chswWW true off v
    | none, none, none, none => .accUnmodeledW a v
  else .chswRead a

/-- An access in the CF handler: the ATA window first (R280, R282), else a register. -/
def decodeCf (c : Cfg) (a : Word) (write : Bool) (v : Word) : Instr :=
  if inRange c.cfAtaBase c.cfAtaLast a then
    let off := (a - c.cfAtaBase).toNat
    if write then .cfAtaW off v else if off = c.cfStatusOff then .cfStatusR else .cfAtaR off
  else decodeReg c .cf a write v

/-- A model constant (R125). -/
def decodeModelConst (c : Cfg) (a : Word) (write : Bool) (v : Word) : Instr :=
  if write then .accUnmodeledW a v
  else match modelConstAt c a with
    | some _ => .modelConstR a
    | none => .accUnmodeledR a

/-- `handle(kind, param, a, op, v)` (R121): the access in a handler of that kind. No family rule reads `param`
(notes/assumptions/27.md). -/
def handle (w : View) (kind : Kind) (_param : Word) (a : Word) (write : Bool) (v : Word) : Instr :=
  match kind with
  | .flash b => decodeFlash w b a write v
  | .chsw => decodeChsw w.cfg a write v
  | .cf => decodeCf w.cfg a write v
  | .modelConst => decodeModelConst w.cfg a write v
  | .ic => decodeReg w.cfg .ic a write v
  | .timer => decodeReg w.cfg .timer a write v
  | .hptimer => decodeReg w.cfg .hptimer a write v
  | .dma => decodeReg w.cfg .dma a write v
  | .edmac => decodeReg w.cfg .edmac a write v
  | .sdio => decodeReg w.cfg .sdio a write v
  | .display => decodeReg w.cfg .display a write v

/-- The operation that an access selects (R120 to R126). -/
def decodeAccess (w : View) (a : Word) (write : Bool) (v : Word) : Instr :=
  match selectHandler w.cfg a with
  | none =>
    if known w.cfg a then (if write then .accDefaultW a v else .accDefaultR a)
    else if write then .accUnknownW a v else .accUnknownR a
  | some h => handle w h.kind h.param a write v

/-- The operation of a TICK transaction. -/
def TickOp.op : TickOp → Instr
  | .run => .tick
  | .tmrTick => .tmrTick
  | .hptTick => .hptTick
  | .icTickWalk => .icTickWalk
  | .cfDmaSlice => .cfDmaSlice
  | .cfDmaIrq => .cfDmaIrq

/-- The operation of a HOST transaction. -/
def HostOp.op : HostOp → Instr
  | .compose => .dispCompose
  | .invalidate => .dispInvalidate
  | .halt => .hostHalt
  | .release => .hostRelease

/-- The operation that a transaction selects. -/
def decodeTransaction (w : View) : Transaction → Instr
  | .acc a write v => decodeAccess w a write v
  | .trig id d => .icTrigger id d
  | .tick op => op.op
  | .host op => op.op
  | .ideDone => .cfIdeDone

/-- Decode a request's bytes into the operation they select. -/
def decode (w : View) (bytes : List Byte) : Except DecodeError Instr :=
  match decodeRequest bytes with
  | .ok t => .ok (decodeTransaction w t)
  | .error e => .error e

/-! ## The encoder -/

/-- The bytes of a transaction. -/
def encodeRequest : Transaction → List Byte
  | .acc a false _ => 0 :: (bytesLe32 a ++ bytesLe32 0)
  | .acc a true v => 1 :: (bytesLe32 a ++ bytesLe32 v)
  | .trig id d => 2 :: (bytesLe32 id ++ bytesLe32 d)
  | .tick op => 3 :: (bytesLe32 (op.code.setWidth 32) ++ bytesLe32 0)
  | .host op => 4 :: (bytesLe32 (op.code.setWidth 32) ++ bytesLe32 0)
  | .ideDone => 5 :: (bytesLe32 0 ++ bytesLe32 0)

/-- `AddrMap(r)` (R91). -/
def addrOf (c : Cfg) (r : RegName) : Option Word := (c.addrMap.find? (fun e => e.1 == r)).map (·.2)

/-- A register access of an operation: the register, whether it is written, and the value. -/
def Instr.reg : Instr → Option (RegName × Bool × Word)
  | .icAck => some (.icCurrent, false, 0)
  | .icEnableW v => some (.icEnable, true, v)
  | .icDisableW k v => some (.icDisable k, true, v)
  | .tmrCtrlW n v => some (.tmrCtrl n, true, v)
  | .tmrCtrlR n => some (.tmrCtrl n, false, 0)
  | .tmrReloadW n v => some (.tmrReload n, true, v)
  | .tmrReloadR n => some (.tmrReload n, false, 0)
  | .tmrValueR n => some (.tmrValue n, false, 0)
  | .clockR => some (.clock, false, 0)
  | .hptCmpW n v => some (.hptCmp n, true, v)
  | .hptCmpR n => some (.hptCmp n, false, 0)
  | .hptCtrlW n v => some (.hptCtrl n, true, v)
  | .hptCtrlR n => some (.hptCtrl n, false, 0)
  | .hptStatusR => some (.hptStatus, false, 0)
  | .hptStatusW v => some (.hptStatus, true, v)
  | .dmaSrcW c v => some (.dmaSrc c, true, v)
  | .dmaSrcR c => some (.dmaSrc c, false, 0)
  | .dmaDstW c v => some (.dmaDst c, true, v)
  | .dmaDstR c => some (.dmaDst c, false, 0)
  | .dmaCountW c v => some (.dmaCount c, true, v)
  | .dmaCountR c => some (.dmaCount c, false, 0)
  | .dmaStart c v => some (.dmaCtrl c, true, v)
  | .edmRegW r ch v => some (.edm r ch, true, v)
  | .edmRegR r ch => some (.edm r ch, false, 0)
  | .edmStart ch v => some (.edmCtrl ch, true, v)
  | .sdCmdloW v => some (.sdCmdLo, true, v)
  | .sdCmdloR => some (.sdCmdLo, false, 0)
  | .sdCmdhiW v => some (.sdCmdHi, true, v)
  | .sdCmdhiR => some (.sdCmdHi, false, 0)
  | .sdDmaregW .addr v => some (.sdDmaAddr, true, v)
  | .sdDmaregW .count v => some (.sdDmaCount, true, v)
  | .sdDmaregR .addr => some (.sdDmaAddr, false, 0)
  | .sdDmaregR .count => some (.sdDmaCount, false, 0)
  | .sdDmactrlW v => some (.sdDmaCtrl, true, v)
  | .sdDmactrlR => some (.sdDmaCtrl, false, 0)
  | .sdIssue v => some (.sdCmdFlags, true, v)
  | .sdRespR i => some (.sdResp i, false, 0)
  | .sdProgressR => some (.sdDmaProgress, false, 0)
  | .sdIrqenW v => some (.sdIrqEn, true, v)
  | .sdIrqenR => some (.sdIrqEn, false, 0)
  | .sdStatusR => some (.sdStatus, false, 0)
  | .cfIntstatR => some (.cfIntStatus, false, 0)
  | .cfDmaregW .addr v => some (.cfDmaAddr, true, v)
  | .cfDmaregW .count v => some (.cfDmaCount, true, v)
  | .cfDmaregR .addr => some (.cfDmaAddr, false, 0)
  | .cfDmaregR .count => some (.cfDmaCount, false, 0)
  | .cfDmaenW v => some (.cfDmaEn, true, v)
  | .cfDmaenR => some (.cfDmaEn, false, 0)
  | .cfDmaReq v => some (.cfDmaCtrl, true, v)
  | .pal4W i v => some (.pal4 i, true, v)
  | .pal4R i => some (.pal4 i, false, 0)
  | .pal8W i v => some (.pal8 i, true, v)
  | .pal8R i => some (.pal8 i, false, 0)
  | .planeAddrW .bmp v => some (.bmpAddr, true, v)
  | .planeAddrW .yuv v => some (.yuvAddr, true, v)
  | .planeAddrR .bmp => some (.bmpAddr, false, 0)
  | .planeAddrR .yuv => some (.yuvAddr, false, 0)
  | _ => none

/-- A flash access of an operation: bank, byte offset, whether it is a write, and the value (R310). -/
def Instr.flashAccess : Instr → Option (Nat × Nat × Bool × Word)
  | .flRead b off => some (b, off, false, 0)
  | .flBusyRead b off => some (b, off, false, 0)
  | .flUnlock1 b off v => some (b, off, true, v)
  | .flUnlock2 b off v => some (b, off, true, v)
  | .flCmdProgram b off v => some (b, off, true, v)
  | .flCmdErase b off v => some (b, off, true, v)
  | .flEraseUnlock1 b off v => some (b, off, true, v)
  | .flEraseUnlock2 b off v => some (b, off, true, v)
  | .flChipErase b off v => some (b, off, true, v)
  | .flBlockErase b off v => some (b, off, true, v)
  | .flBypassEraseEntry b off v => some (b, off, true, v)
  | .flBypassProgramEntry b off v => some (b, off, true, v)
  | .flBypassChipErase b off v => some (b, off, true, v)
  | .flBypassBlockErase b off v => some (b, off, true, v)
  | .flProgramData b off v => some (b, off, true, v)
  | .flBadCycle b off v => some (b, off, true, v)
  | .flPassR b off => some (b, off, false, 0)
  | .flPassW b off v => some (b, off, true, v)
  | _ => none

/-- The transaction of the operations that are neither a register access nor a flash access. -/
def encodeOther (c : Cfg) : Instr → Option Transaction
  | .accUnknownR a => some (.acc a false 0)
  | .accUnknownW a v => some (.acc a true v)
  | .accDefaultR a => some (.acc a false 0)
  | .accDefaultW a v => some (.acc a true v)
  | .accUnmodeledR a => some (.acc a false 0)
  | .accUnmodeledW a v => some (.acc a true v)
  | .modelConstR a => some (.acc a false 0)
  | .icTrigger id d => some (.trig id d)
  | .icTickWalk => some (.tick .icTickWalk)
  | .tmrTick => some (.tick .tmrTick)
  | .hptTick => some (.tick .hptTick)
  | .chswRW second off v =>
    some (.acc ((c.chsw (if second then .r1 else .r0)).base + BitVec.ofNat 32 off) true v)
  | .chswWW second off v =>
    some (.acc ((c.chsw (if second then .w1 else .w0)).base + BitVec.ofNat 32 off) true v)
  | .chswRead a => some (.acc a false 0)
  | .cfAtaR off => some (.acc (c.cfAtaBase + BitVec.ofNat 32 off) false 0)
  | .cfAtaW off v => some (.acc (c.cfAtaBase + BitVec.ofNat 32 off) true v)
  | .cfStatusR => some (.acc (c.cfAtaBase + BitVec.ofNat 32 c.cfStatusOff) false 0)
  | .cfIdeDone => some .ideDone
  | .cfDmaSlice => some (.tick .cfDmaSlice)
  | .cfDmaIrq => some (.tick .cfDmaIrq)
  | .dispCompose => some (.host .compose)
  | .dispInvalidate => some (.host .invalidate)
  | .tick => some (.tick .run)
  | .hostHalt => some (.host .halt)
  | .hostRelease => some (.host .release)
  | _ => none

/-- The transaction that selects an operation under a configuration; `none` when the configuration gives its
register no address. -/
def encodeTransaction (c : Cfg) (i : Instr) : Option Transaction :=
  match i.reg with
  | some (r, write, v) => (addrOf c r).map (fun a => .acc a write v)
  | none =>
    match i.flashAccess with
    | some (b, off, write, v) => some (.acc (c.bankBase b + BitVec.ofNat 32 off) write v)
    | none => encodeOther c i

/-- The bytes of the request that selects an operation. -/
def encode (c : Cfg) (i : Instr) : Option (List Byte) := (encodeTransaction c i).map encodeRequest

/-! ## The opcode table's words -/

/-- The bytes of a request whose bits are `w`: byte 0 holds bits 7..0, every bit from `nbits` on is 0. -/
def wordBytes (nbits w : Nat) : List Byte :=
  (List.range requestBytes).map (fun i => BitVec.ofNat 8 ((w % 2 ^ nbits) / 2 ^ (8 * i)))

/-- What decoding reads of the machine right after reset: every bank in READ (R45). -/
def View.reset (c : Cfg) : View := ⟨c, c.banks.map (fun _ => .read)⟩

/-- The operation that the decoder reads, right after reset, from a request whose bits are `w`. -/
def decodeTableWord (nbits w : Nat) : Option Instr :=
  match decode (View.reset Config.tc) (wordBytes nbits w) with
  | .ok i => some i
  | .error _ => none

end Sys2Proof
end

