-- ==== Sys2Proof/Machine/State.lean ====
section
/-! DEFINITION. The machine state of spec/10_state.md (rules R22 to R42) as plain data, with the collaborators it
talks to (spec/20_memory.md rules R60 to R66): guest memory, the scripted answers of the storage backends and of the
IDE abstraction, the presentation surface, the calls the block has made. Then the reasons a step can stop, the
named updates, and the state after reset (R45). -/

namespace Sys2Proof.Machine

/-! ## Interrupt controller (R23 to R25) -/

/-- `InterruptLine` (R23): `sched` is 0 when not scheduled, else a countdown. -/
structure Line where
  enabled : Bool
  sched : Word
  deriving DecidableEq, Repr

/-- The in-service record (R24): the line and the enabled-mask snapshot, which no rule reads. -/
structure ActiveIrq where
  id : Nat
  mask : List Bool
  deriving DecidableEq, Repr

/-- `IcState`: the lines, the one in-service latch, the level driven onto the CPU line (R25). -/
structure IcState where
  line : List Line
  active : Option ActiveIrq
  irqLine : Bool
  deriving DecidableEq, Repr

/-! ## Timers (R27 to R29) -/

/-- `TimerChannel` (R28). -/
structure TimerChannel where
  enabled : Bool
  reload : Word
  current : Word
  deriving DecidableEq, Repr

/-- `HPTimerChannel` (R29). -/
structure HptChannel where
  active : Bool
  ocv : Word
  triggered : Bool
  deriving DecidableEq, Repr

/-! ## DMA and EDMAC (R30 to R32) -/

/-- `DmaChannel` (R30). -/
structure DmaChannel where
  src : Word
  dst : Word
  count : Word
  deriving DecidableEq, Repr

/-- The stored configuration registers of an EDMAC channel (R31, R230). -/
structure EdmacRegs where
  addr : Word
  flags : Word
  sizeA : Word
  offA : Word
  sizeB : Word
  offB : Word
  sizeN : Word
  offN : Word
  byteOff : Word
  deriving DecidableEq, Repr

/-- `EdmacChannel` (R31): `lastConn` and `started` are the records a start makes. -/
structure EdmacChannel where
  regs : EdmacRegs
  lastConn : Option Word
  started : Nat
  deriving DecidableEq, Repr

/-- `ConnectionMatrix` (R32): `readConn[i]` is the channel of connection i, `writeConn[ch]` the connection of
channel ch. -/
structure ConnMatrix where
  readConn : List (Option Nat)
  writeConn : List (Option Word)
  deriving DecidableEq, Repr

/-! ## Storage (R33, R34) -/

/-- The direction of a transfer: `read` moves data from the device into guest memory. -/
inductive Dir where
  | read | write
  deriving DecidableEq, Repr

/-- A data command whose data phase has not yet run (R33). -/
structure SdOutstanding where
  cmd : BitVec 6
  dir : Dir
  multi : Bool
  deriving DecidableEq, Repr

/-- The four SD response registers (R267). -/
structure SdResp where
  r0 : Word
  r1 : Word
  r2 : Word
  r3 : Word
  deriving DecidableEq, Repr

/-- `SdioState` (R33). -/
structure SdState where
  cmdLo : Word
  cmdHi : Word
  resp : SdResp
  status : Word
  dmaAddr : Word
  dmaCount : Word
  dmaProgress : Word
  dmaEnabled : Bool
  irqEn : Bool
  irqPending : Bool
  outstanding : Option SdOutstanding
  deriving DecidableEq, Repr

/-- `pending_dma` (R34): a flagged CF transfer, `done` of its `words` words moved. -/
structure CfDma where
  dir : Dir
  addr : Word
  words : Word
  done : Word
  deriving DecidableEq, Repr

/-- `CfState` (R34). -/
structure CfState where
  dmaAddr : Word
  dmaCount : Word
  dmaEnabled : Bool
  pendingDma : Option CfDma
  irqPending : Bool
  deriving DecidableEq, Repr

/-! ## Flash (R35) and memories -/

/-- A memory: the bytes that differ from what an unlisted address reads as, by rising address. -/
abbrev Memory := List Host.Cell

/-- The canonical form of a memory whose addresses are below `limit`: addresses strictly rising, and, where an unlisted
byte reads as a known value `dflt`, no entry equal to it. -/
def Memory.wf (dflt : Option Byte) (limit : Nat) (m : Memory) : Bool := cellsCanonical dflt limit m

/-- `FlashBank` (R35): `image` lists the bytes that differ from the erased byte 0xFF. -/
structure FlashBank where
  state : FlashState
  busyReads : BitVec 8
  image : Memory
  deriving DecidableEq, Repr

/-! ## Display (R37 to R39) -/

/-- `PaletteEntry` (R37). -/
structure PaletteEntry where
  r : Byte
  g : Byte
  b : Byte
  opacity : Byte
  deriving DecidableEq, Repr

/-- `DisplayState`: the two palette banks, the plane addresses (R38), the dirty-tracking record (R39). -/
structure DisplayState where
  pal4 : List PaletteEntry
  pal8 : List PaletteEntry
  bmpAddr : Word
  yuvAddr : Word
  seenBmp : Option (List (List Byte))
  seenYuv : Option (List (List Byte))
  invalidateAll : Bool
  deriving DecidableEq, Repr

/-! ## Dispatcher, agents, fatal stop (R40 to R42) -/

/-- `LimiterState` (R40). -/
structure Limiter where
  lastUnknown : Option Word
  count : Nat
  deriving DecidableEq, Repr

/-- A `trigger(id, delay)` call an access still owes the interrupt controller (R41, R83). -/
structure TriggerCall where
  id : Word
  delay : Word
  deriving DecidableEq, Repr

/-- Which atomic sub-step of the current tick comes next (R41). -/
inductive TickPhase where
  | timers | cf | cfIrq
  deriving DecidableEq, Repr

/-- `AgentState` (R41). -/
structure Agents where
  cpuHalted : Bool
  cpuQueue : List TriggerCall
  tickPhase : TickPhase
  deriving DecidableEq, Repr

/-- `FatalReason` (R42): the invariant violations of R403. -/
inductive FatalReason where
  | edmacNoIrq (ch : Nat)
  | cfDmaNotEnabled
  | irqIdOutOfRange (id : Word)
  deriving DecidableEq, Repr

/-! ## Collaborators (R61 to R66, R402) -/

/-- The kinds of diagnostic event (R400). -/
inductive LogKind where
  | unmodeled | protocol | unknown
  deriving DecidableEq, Repr

/-- The `info` record of a diagnostic event (R402). -/
inductive LogInfo where
  | access (addr : Word) (write : Bool) (value pc : Word)
  | icEnable (id pc : Word)
  | chsw (sub : ChswSub) (off : Nat) (value pc : Word)
  | cfDmaCtrl (value pc : Word)
  | flash (bank : Nat) (state : FlashState) (woff : Nat) (v : Half) (pc : Word)
  | sdOutstanding (pc : Word)
  | cfPending (pc : Word)
  deriving DecidableEq, Repr

/-- The calls the block makes on its collaborators and the diagnostics it emits, in `State.calls` newest first:
`raise_irq` and `lower_irq` (R63), the commands and bytes sent to the backends (R64), the accesses forwarded to the
IDE abstraction (R65), the display sink's calls (R66), the log events (R402). Guest-memory writes stand in
`State.mem`. -/
inductive Call where
  | raiseIrq
  | lowerIrq
  | sdCommand (cmd : BitVec 6) (arg : BitVec 40)
  | sdWriteByte (b : Byte)
  | cfWriteByte (b : Byte)
  | ideRead (off : Nat)
  | ideWrite (off : Nat) (v : Word)
  | resize (w h : Nat)
  | blitRows (first last : Nat)
  | log (kind : LogKind) (info : LogInfo)
  deriving DecidableEq, Repr

/-- The collaborators' coming answers (R64, R65), each list in the order of the calls: an answer is any value, so
the script is arbitrary. A call that finds its list empty is answered by the free answer of its number
(`draws` counts them). `pc` is what `current_pc()` answers now (R63). -/
structure Env where
  sdResponses : List SdResponse
  sdBytes : List Byte
  cfReady : List Bool
  cfBytes : List Byte
  ideValues : List Word
  ideDone : List Bool
  ataIrqEnabled : List Bool
  draws : Nat
  pc : Word
  deriving DecidableEq, Repr

/-- One move of the interleaving (R81), as the outside makes it: a transaction presented to the block, the CPU
agent's next owed trigger step (R83), the CPU collaborator's own store to guest memory (R61), a change of the
CPU's program counter (R63). -/
inductive Event where
  | request (bytes : List Byte)
  | cpuTrigger
  | guestStore (addr : Word) (bytes : List Byte)
  | cpuPc (pc : Word)
  deriving DecidableEq, Repr

/-- Guest physical memory as the block sees it (R61): the history of the write events and of the `MemRead` calls made.
What memory holds where nothing was written, and what a read of an address with no memory behind it returns, are the
CPU collaborator's free answers (notes/assumptions/3.md). -/
structure Guest where
  /-- the last byte written at each address written, by rising address -/
  cells : Memory
  /-- the inclusive address ranges with no memory behind them -/
  holes : List (Word × Word)
  /-- how many `MemRead` calls have been made -/
  reads : Nat
  deriving DecidableEq, Repr

/-! ## The machine -/

/-- The machine: the record of R22, then the configuration, the collaborators, and the interleaving still to run. -/
structure State where
  ic : IcState
  clock : Word
  tmr : List TimerChannel
  hpt : List HptChannel
  dma : List DmaChannel
  edmac : List EdmacChannel
  conn : ConnMatrix
  sd : SdState
  cf : CfState
  flash : List FlashBank
  disp : DisplayState
  lim : Limiter
  agents : Agents
  fatal : Option FatalReason
  /-- the configuration (R7): no step changes it -/
  cfg : Cfg
  /-- guest physical memory (R60, R61) -/
  mem : Guest
  /-- the collaborators' answers -/
  env : Env
  /-- the calls made so far, newest first -/
  calls : List Call
  /-- the presentation layer's RGB32 surface (R66), one list of pixels per row -/
  surface : List (List Word)
  /-- the value the last access returns to the CPU collaborator (R62, R83) -/
  ret : Option Word
  /-- the interleaving still to run, first move first (R81) -/
  schedule : List Event
  deriving DecidableEq, Repr

/-- The agents of R80; `component` stands for a TRIG transaction or an IDE event, which come from inside the block or
from a collaborator. -/
inductive Agent where
  | cpu | ticker | host | component
  deriving DecidableEq, Repr

/-- Why the machine stops. -/
inductive Fault where
  /-- Raised by `step` in a state whose `fatal` is set: no agent has a step after a class (3) violation (R403).
  Safe: it is the spec's own process-terminating stop. -/
  | fatalStop (r : FatalReason)
  /-- Raised by a step whose agent has no step now: the ticker while the CPU is halted (R84, R370), a new CPU access
  while it is halted (R84), a trigger step with none owed, nothing scheduled and no agent able to move. Safe: the
  spec gives no step there, and the model takes none. -/
  | noStep (agent : Agent)
  deriving DecidableEq, Repr

/-- Why an operation has no meaning. -/
inductive Refusal where
  /-- Raised by an arm of `exec` whose operation has no meaning yet. Safe: nothing is claimed of it. -/
  | notModelled (mnemonic : String)
  /-- Raised by `step` on a scheduled request whose bytes are no transaction (R90 has no other format). Safe: the
  block receives transactions only. -/
  | badRequest (e : DecodeError)
  deriving DecidableEq, Repr

/-! ## Named updates -/

/-- Replace the interrupt controller's state. -/
def State.withIc (s : State) (x : IcState) : State := { s with ic := x }
/-- Replace the clock. -/
def State.withClock (s : State) (x : Word) : State := { s with clock := x }
/-- Replace the timer channels. -/
def State.withTmr (s : State) (x : List TimerChannel) : State := { s with tmr := x }
/-- Replace the HPTimer channels. -/
def State.withHpt (s : State) (x : List HptChannel) : State := { s with hpt := x }
/-- Replace the DMA channels. -/
def State.withDma (s : State) (x : List DmaChannel) : State := { s with dma := x }
/-- Replace the EDMAC channels. -/
def State.withEdmac (s : State) (x : List EdmacChannel) : State := { s with edmac := x }
/-- Replace the connection matrix. -/
def State.withConn (s : State) (x : ConnMatrix) : State := { s with conn := x }
/-- Replace the SDIO controller's state. -/
def State.withSd (s : State) (x : SdState) : State := { s with sd := x }
/-- Replace the CF controller's state. -/
def State.withCf (s : State) (x : CfState) : State := { s with cf := x }
/-- Replace the flash banks. -/
def State.withFlash (s : State) (x : List FlashBank) : State := { s with flash := x }
/-- Replace the display state. -/
def State.withDisp (s : State) (x : DisplayState) : State := { s with disp := x }
/-- Replace the limiter. -/
def State.withLim (s : State) (x : Limiter) : State := { s with lim := x }
/-- Replace the agents' state. -/
def State.withAgents (s : State) (x : Agents) : State := { s with agents := x }
/-- Replace the fatal reason. -/
def State.withFatal (s : State) (x : Option FatalReason) : State := { s with fatal := x }
/-- Replace guest memory. -/
def State.withMem (s : State) (x : Guest) : State := { s with mem := x }
/-- Replace the collaborators' answers. -/
def State.withEnv (s : State) (x : Env) : State := { s with env := x }
/-- Replace the record of calls. -/
def State.withCalls (s : State) (x : List Call) : State := { s with calls := x }
/-- Replace the surface. -/
def State.withSurface (s : State) (x : List (List Word)) : State := { s with surface := x }
/-- Replace the returned value. -/
def State.withRet (s : State) (x : Option Word) : State := { s with ret := x }
/-- Replace the interleaving still to run. -/
def State.withSchedule (s : State) (x : List Event) : State := { s with schedule := x }

/-! ## Reset (R45, R430 to R432) -/

/-- The EDMAC registers after reset. -/
def EdmacRegs.reset : EdmacRegs := ⟨0, 0, 0, 0, 0, 0, 0, 0, 0⟩

/-- The SDIO controller after reset. -/
def SdState.reset : SdState :=
  { cmdLo := 0, cmdHi := 0, resp := ⟨0, 0, 0, 0⟩, status := 0, dmaAddr := 0, dmaCount := 0, dmaProgress := 0,
    dmaEnabled := false, irqEn := false, irqPending := false, outstanding := none }

/-- The CF controller after reset. -/
def CfState.reset : CfState :=
  { dmaAddr := 0, dmaCount := 0, dmaEnabled := false, pendingDma := none, irqPending := false }

/-- The display state after reset. -/
def DisplayState.reset : DisplayState :=
  { pal4 := List.replicate 16 ⟨0, 0, 0, 0⟩, pal8 := List.replicate 256 ⟨0, 0, 0, 0⟩, bmpAddr := 0, yuvAddr := 0,
    seenBmp := none, seenYuv := none, invalidateAll := true }

/-- No script: every answer is free. -/
def Env.reset : Env :=
  { sdResponses := [], sdBytes := [], cfReady := [], cfBytes := [], ideValues := [], ideDone := [],
    ataIrqEnabled := [], draws := 0, pc := 0 }

/-- The machine right after init under configuration `c` (R45): every element at its initial value, each bank with
its loaded image. -/
def State.init (c : Cfg) : State where
  ic := ⟨List.replicate c.maxIrq ⟨false, 0⟩, none, false⟩
  clock := 0
  tmr := List.replicate c.nTimers ⟨false, 0, 0⟩
  hpt := List.replicate Config.nHpt ⟨false, 0, false⟩
  dma := List.replicate c.nDma ⟨0, 0, 0⟩
  edmac := List.replicate c.nEdmac ⟨EdmacRegs.reset, none, 0⟩
  conn := ⟨List.replicate Config.nConn none, List.replicate c.nEdmac none⟩
  sd := SdState.reset
  cf := CfState.reset
  flash := c.banks.map (fun b => ⟨.read, 0, b.image⟩)
  disp := DisplayState.reset
  lim := ⟨none, 0⟩
  agents := ⟨false, [], .timers⟩
  fatal := none
  cfg := c
  mem := ⟨[], [], 0⟩
  env := Env.reset
  calls := []
  surface := []
  ret := none
  schedule := []

/-- Machine init (R432): a configuration that breaks a condition of R433 is refused, and no machine exists. -/
def State.initOf (c : Cfg) : Option State := if c.wf then some (State.init c) else none

/-- The machine right after reset, under the spec's test configuration `TC` (DESIGN CHOICE,
notes/assumptions/2.md). -/
def State.reset : State := State.init Config.tc

end Sys2Proof.Machine
end

