-- ==== Sys2Proof/Machine/Operands.lean ====
section
/-! DEFINITION. How operands are taken out of the value of an access and results put into it: spec/30_encoding.md
rules R93 to R99, and the field forms of the family files. Every function is pure. -/

namespace Sys2Proof.Machine

/-- The control bit of a "bit0" register: `value[0]` alone selects the operation (R93). -/
def controlBit (v : Word) : Bool := v.getLsbD 0

/-- `max(delay, 1)` (R142, R186). -/
def atLeastOne (d : Word) : Word := if d = 0 then 1 else d

/-- The delay an OS-timer arm or re-arm schedules: `max(reload >> 8, 1)` (R98, R186). -/
def osDelay (reload : Word) : Word := atLeastOne (reload >>> Config.osReloadShift)

/-- The line ids that an IC_DISABLE mask names: bit `i` of instance `k` is line `32*k + i` (R94, R147). -/
def maskLines (maxIrq k : Nat) (mask : Word) : List Nat :=
  ((List.range 32).filter (fun i => mask.getLsbD i && decide (32 * k + i < maxIrq))).map (fun i => 32 * k + i)

/-- The IC_CURRENT value of a line: `(id << IRQ_ID_SHIFT)[31:0]` (R94). -/
def irqIdValue (c : Cfg) (id : Nat) : Word := BitVec.ofNat 32 id <<< c.irqIdShift

/-- The quantized compare value `((v mod CLOCK_MOD) div CLOCK_STEP) * CLOCK_STEP` (R97). -/
def quantize (c : Cfg) (v : Word) : Word := BitVec.ofNat 32 (v.toNat % c.clockMod / c.clockStep * c.clockStep)

/-- The clock after one tick: `(clock + CLOCK_STEP) mod CLOCK_MOD` over the integers (R180). -/
def clockNext (c : Cfg) (clock : Word) : Word := BitVec.ofNat 32 ((clock.toNat + c.clockStep) % c.clockMod)

/-- A running channel's value after one tick: advanced by the step, 0 when it exceeds the reload value (R181). -/
def timerNext (c : Cfg) (t : TimerChannel) : Word :=
  if t.reload.toNat < t.current.toNat + c.clockStep then 0 else BitVec.ofNat 32 (t.current.toNat + c.clockStep)

/-- The SDIO command token `T = (cmd_hi[15:0] : cmd_lo)` (R96). -/
def sdToken (hi lo : Word) : BitVec 48 := hi.extractLsb' 0 16 ++ lo

/-- `cmd = T[45:40]` (R96). -/
def sdCmd (t : BitVec 48) : BitVec 6 := t.extractLsb' 40 6

/-- `arg = T[39:0]` (R96). -/
def sdArg (t : BitVec 48) : BitVec 40 := t.extractLsb' 0 40

/-- The commands that have a data phase, `SD_DATA_CMDS = {17, 18, 24, 25}` (R265). -/
def sdIsData (cmd : BitVec 6) : Bool := cmd == 17 || cmd == 18 || cmd == 24 || cmd == 25

/-- The multi-block commands 18 and 25 (R265). -/
def sdIsMulti (cmd : BitVec 6) : Bool := cmd == 18 || cmd == 25

/-- The direction of a data command: 17 and 18 read (R265). -/
def sdDir (cmd : BitVec 6) : Dir := if cmd == 17 || cmd == 18 then .read else .write

/-- The byte that a lane of a byte-lane packing takes from a response. -/
def laneByte (bytes : List Byte) : Option Nat → Byte
  | some k => bytes.getD k 0
  | none => 0

/-- Response register `i` under a byte-lane packing. -/
def laneWord (lanes : List (Option Nat)) (bytes : List Byte) (i : Nat) : Word :=
  le32 (laneByte bytes (lanes.getD (4 * i) none)) (laneByte bytes (lanes.getD (4 * i + 1) none))
    (laneByte bytes (lanes.getD (4 * i + 2) none)) (laneByte bytes (lanes.getD (4 * i + 3) none))

/-- The four response registers under a byte-lane packing. -/
def laneResp (lanes : List (Option Nat)) (bytes : List Byte) : SdResp :=
  ⟨laneWord lanes bytes 0, laneWord lanes bytes 1, laneWord lanes bytes 2, laneWord lanes bytes 3⟩

/-- `SD_PACK(r)` (R265, D37): the configured packing of a response. -/
def sdPacked (c : Cfg) (r : SdResponse) : SdResp :=
  match c.sdPack, r with
  | .lanes r4 _, .resp4 b => laneResp r4 b.toList
  | .lanes _ r16, .resp16 b => laneResp r16 b.toList
  | .lanes _ _, .fail => ⟨0, 0, 0, 0⟩
  | .unstated k, r =>
    let p := Config.sdPack k r
    ⟨p.1, p.2.1, p.2.2.1, p.2.2.2⟩

/-- Response register `i` (R267). -/
def SdResp.word (r : SdResp) (i : Nat) : Word :=
  if i = 0 then r.r0 else if i = 1 then r.r1 else if i = 2 then r.r2 else if i = 3 then r.r3 else 0

/-- Read a configuration register of an EDMAC channel (R230). -/
def EdmacRegs.get (x : EdmacRegs) : EdmacReg → Word
  | .addr => x.addr
  | .flags => x.flags
  | .sizeA => x.sizeA
  | .offA => x.offA
  | .sizeB => x.sizeB
  | .offB => x.offB
  | .sizeN => x.sizeN
  | .offN => x.offN
  | .byteOff => x.byteOff

/-- Write a configuration register of an EDMAC channel (R230). -/
def EdmacRegs.set (x : EdmacRegs) (r : EdmacReg) (v : Word) : EdmacRegs :=
  match r with
  | .addr => { x with addr := v }
  | .flags => { x with flags := v }
  | .sizeA => { x with sizeA := v }
  | .offA => { x with offA := v }
  | .sizeB => { x with sizeB := v }
  | .offB => { x with offB := v }
  | .sizeN => { x with sizeN := v }
  | .offN => { x with offN := v }
  | .byteOff => { x with byteOff := v }

/-- PAL_PACK (R99): the palette entry of a register value. -/
def palEntry (v : Word) : PaletteEntry :=
  { opacity := v.extractLsb' 24 8, r := v.extractLsb' 16 8, g := v.extractLsb' 8 8, b := v.extractLsb' 0 8 }

/-- PAL_PACK (R99): the register value of a palette entry. -/
def palValue (e : PaletteEntry) : Word := e.opacity ++ e.r ++ e.g ++ e.b

/-- The number of bytes an SDIO data phase moves: whole word-quads, `4 * (dma_count div 4)` (R266). -/
def sdBytes (count : Word) : Nat := 4 * (count.toNat / 4)

/-- The number of words a CF transfer moves: `dma_count div 4` (R286). -/
def cfWords (count : Word) : Word := BitVec.ofNat 32 (count.toNat / 4)

end Sys2Proof.Machine
end

