-- ==== Sys2Proof/Machine/Flags.lean ====
section
/-! DEFINITION. The status bits and flags of spec/10_state.md rule R43: how each is computed and laid out. -/

namespace Sys2Proof.Machine

/-- `zext_32` of a Bool (R93). -/
def flagWord (b : Bool) : Word := if b then 1 else 0

/-- A word with bit `n` alone set. -/
def bitMask (n : Nat) : Word := (1 : Word) <<< n

/-- The SDIO status after a completed command: bit SD_ST_DONE (R265). -/
def sdStatusDone (c : Cfg) : Word := bitMask c.sdStDone

/-- The SDIO status after a backend failure: bits SD_ST_DONE and SD_ST_ERR (R265, R404). -/
def sdStatusFail (c : Cfg) : Word := bitMask c.sdStDone ||| bitMask c.sdStErr

/-- The SDIO status with bit SD_ST_DATA, "data available", added (R266). -/
def sdStatusData (c : Cfg) (status : Word) : Word := status ||| bitMask c.sdStData

/-- HPT_STATUS (R194): bit `n` is the latch of channel `n`, bits 31:8 are 0. -/
def hptStatus (hpt : List HptChannel) : Word :=
  (List.range Config.nHpt).foldl
    (fun acc n => acc ||| (if (hpt[n]?.map (·.triggered)).getD false then bitMask n else 0)) 0

/-- The channels after a write of `v` to HPT_STATUS (R195): a latch whose bit is 1 is cleared. -/
def hptClear (v : Word) (hpt : List HptChannel) : List HptChannel :=
  hpt.mapIdx (fun n ch => if decide (n < Config.nHpt) && v.getLsbD n then { ch with triggered := false } else ch)

/-- A channel matches in this tick (R193): active, and its compare value equals the clock. -/
def hptMatches (clock : Word) (ch : HptChannel) : Bool := ch.active && ch.ocv == clock

/-- A channel after the compare of a tick (R193): a match sets the latch, and deactivates when `HPT_ONESHOT`. -/
def hptCompared (c : Cfg) (clock : Word) (ch : HptChannel) : HptChannel :=
  if hptMatches clock ch then { ch with triggered := true, active := !c.hptOneshot } else ch

end Sys2Proof.Machine
end

