-- ==== Sys2Proof/Machine/Ops.lean ====
section
/-! DEFINITION. The shared operations over memory, registers and collaborators: guest memory and images (R61, R311),
channels, the collaborators' answers (R64, R65), diagnostics (R402), the fatal stop (R403), interrupt delivery and
acknowledge (R141, R145), `trigger` (R142), the OS-timer arm and re-arm (R186, R187). -/

namespace Sys2Proof.Machine

/-- What an operation answers. -/
abbrev Res := Host.Outcome State Fault Refusal

/-! ## Memories in canonical form -/

/-- Read one byte; an unlisted address reads as `dflt`. -/
def memRead (dflt : Byte) : Memory → Nat → Byte
  | [], _ => dflt
  | e :: m, a => if e.1 = a then e.2 else memRead dflt m a

/-- Write one byte, keeping the canonical form: where an unlisted byte reads as the known value `dflt`, writing that
value removes the entry. -/
def memWrite (dflt : Option Byte) : Memory → Nat → Byte → Memory
  | [], a, b => if some b = dflt then [] else [(a, b)]
  | e :: m, a, b =>
    if a < e.1 then (if some b = dflt then e :: m else (a, b) :: e :: m)
    else if a = e.1 then (if some b = dflt then m else (a, b) :: m)
    else e :: memWrite dflt m a b

/-- Erase the bytes at `lo` and above, below `hi`: they read as the default afterwards. -/
def memErase (lo hi : Nat) (m : Memory) : Memory := m.filter (fun e => !(decide (lo ≤ e.1) && decide (e.1 < hi)))

/-! ## Guest memory (R61) -/

/-- The size of the guest physical address space. -/
def guestSize : Nat := 2 ^ 32

/-- The canonical form of guest memory: nothing is known of a byte that no write event gave. -/
def Guest.wf (g : Guest) : Bool := Memory.wf none guestSize g.cells

/-- There is memory behind an address. -/
def Guest.backed (g : Guest) (a : Nat) : Bool := !g.holes.any (fun r => inRange r.1 r.2 (BitVec.ofNat 32 a))

/-- The byte guest memory holds at an address: the last one written there, else the collaborator's own. -/
def guestByte (g : Guest) (a : Nat) : Byte := memRead (Config.guestInit (a % guestSize)) g.cells (a % guestSize)

/-- What the next `MemRead` call returns for an address (R61): the byte memory holds, or, with no memory behind the
address, a free answer of that call. -/
def guestAnswer (g : Guest) (a : Nat) : Byte :=
  if g.backed a then guestByte g a else Config.guestNoMemory g.reads (a % guestSize)

/-- Guest memory after `k` more `MemRead` calls: they change what it holds nowhere. -/
def Guest.after (g : Guest) (k : Nat) : Guest := { g with reads := g.reads + k }

/-- The bytes of the next call `MemRead(addr, n)` (R61): byte `i` is at `(addr + i) mod 2^32`. The step that makes the
call leaves `Guest.after 1`. -/
def guestRead (g : Guest) (a n : Nat) : List Byte := (List.range n).map (fun i => guestAnswer g (a + i))

/-- The cells after bytes written at rising addresses, modulo the address space. -/
def cellsWrite (m : Memory) (a : Nat) : List Byte → Memory
  | [] => m
  | b :: bs => cellsWrite (memWrite none m (a % guestSize) b) (a + 1) bs

/-- `MemWrite(addr, n, bytes)` (R61): byte `i` goes to `(addr + i) mod 2^32`, in ascending order of `i`. -/
def guestWrite (g : Guest) (a : Nat) (bytes : List Byte) : Guest := { g with cells := cellsWrite g.cells a bytes }

/-! ## Channels -/

/-- Line `id` (R23). -/
def lineAt (s : State) (id : Nat) : Line := s.ic.line.getD id ⟨false, 0⟩

/-- Timer channel `n` (R28). -/
def tmrAt (s : State) (n : Nat) : TimerChannel := s.tmr.getD n ⟨false, 0, 0⟩

/-- HPTimer channel `n` (R29). -/
def hptAt (s : State) (n : Nat) : HptChannel := s.hpt.getD n ⟨false, 0, false⟩

/-- DMA channel `c` (R30). -/
def dmaAt (s : State) (c : Nat) : DmaChannel := s.dma.getD c ⟨0, 0, 0⟩

/-- EDMAC channel `ch` (R31). -/
def edmacAt (s : State) (ch : Nat) : EdmacChannel := s.edmac.getD ch ⟨EdmacRegs.reset, none, 0⟩

/-- ROM bank `b` (R35). -/
def bankAt (s : State) (b : Nat) : FlashBank := s.flash.getD b ⟨.read, 0, []⟩

/-- Update line `id`. -/
def modLine (id : Nat) (f : Line → Line) (s : State) : State := s.withIc { s.ic with line := s.ic.line.modify id f }

/-- Update timer channel `n`. -/
def modTmr (n : Nat) (f : TimerChannel → TimerChannel) (s : State) : State := s.withTmr (s.tmr.modify n f)

/-- Update HPTimer channel `n`. -/
def modHpt (n : Nat) (f : HptChannel → HptChannel) (s : State) : State := s.withHpt (s.hpt.modify n f)

/-- Update DMA channel `c`. -/
def modDma (c : Nat) (f : DmaChannel → DmaChannel) (s : State) : State := s.withDma (s.dma.modify c f)

/-- Update EDMAC channel `ch`. -/
def modEdmac (ch : Nat) (f : EdmacChannel → EdmacChannel) (s : State) : State := s.withEdmac (s.edmac.modify ch f)

/-- Update ROM bank `b`. -/
def modBank (b : Nat) (f : FlashBank → FlashBank) (s : State) : State := s.withFlash (s.flash.modify b f)

/-- Set the countdown of line `id` (R23). -/
def setSched (id : Nat) (d : Word) (s : State) : State := modLine id (fun l => { l with sched := d }) s

/-- Set the enable flag of line `id` (R23). -/
def setEnabled (id : Nat) (e : Bool) (s : State) : State := modLine id (fun l => { l with enabled := e }) s

/-- Which atomic sub-step of the tick comes next (R41). -/
def setPhase (p : TickPhase) (s : State) : State := s.withAgents { s.agents with tickPhase := p }

/-! ## Calls, diagnostics and outcomes -/

/-- Make a call on a collaborator. -/
def emit (c : Call) (s : State) : State := s.withCalls (c :: s.calls)

/-- `Log(kind, info)` (R402). -/
def logEvent (k : LogKind) (info : LogInfo) (s : State) : State := emit (.log k info) s

/-- `Log(Unmodeled)` of an access (R124). -/
def logUnmodeled (a : Word) (write : Bool) (v : Word) (s : State) : State :=
  logEvent .unmodeled (.access a write v s.env.pc) s

/-- An access that returns `v` (R62). -/
def answer (v : Word) (s : State) : Res := .next (s.withRet (some v))

/-- A write: a handler's write returns 0 (R122). -/
def wrote (s : State) : Res := .next (s.withRet (some 0))

/-- The fatal stop (R403): the reason is recorded and nothing else changes. -/
def raiseFatal (r : FatalReason) (s : State) : State := s.withFatal (some r)

/-- The end of a step that began at `s` and computed `t`: a step that finds an invariant violation changes nothing
but `fatal` (R403). -/
def orFatal (s t : State) : State :=
  match t.fatal with
  | none => t
  | some r => raiseFatal r s

/-- A write that may end in the fatal stop: the access then returns no value (R403). -/
def wroteOrFatal (t : State) : Res :=
  match t.fatal with
  | none => wrote t
  | some _ => .next t

/-- A step of the ticker (R370): it has one iff the CPU is not halted and nothing fatal has happened. -/
def tickerStep (f : State → State) (s : State) : Res :=
  if s.agents.cpuHalted || s.fatal.isSome then .fault (.noStep .ticker) else .next (orFatal s (f s))

/-- A `trigger` call that the access in progress owes (R83). -/
def queueTrigger (id d : Word) (s : State) : State :=
  s.withAgents { s.agents with cpuQueue := s.agents.cpuQueue ++ [⟨id, d⟩] }

/-! ## Interrupts: the OS timer, delivery, acknowledge, trigger -/

/-- `os_arm()` (R186): straight to the schedule, never an immediate delivery. -/
def osArm (s : State) : State := setSched s.cfg.osTimerIrq.toNat (osDelay (tmrAt s s.cfg.osTimerCh).reload) s

/-- `os_rearm()` (R187): only while the OS channel runs. -/
def osRearm (s : State) : State := if (tmrAt s s.cfg.osTimerCh).enabled then osArm s else s

/-- The enabled-mask snapshot (R24, R141). -/
def enabledMask (s : State) : List Bool := s.ic.line.map (·.enabled)

/-- `deliver(id)` (R141): record the line as in service with the mask before the auto-disable, disable the line,
assert the CPU line; a delivery of the OS line re-arms it. -/
def deliver (id : Nat) (s : State) : State :=
  let s1 := s.withIc
    { line := s.ic.line.modify id (fun l => { l with enabled := false }), active := some ⟨id, enabledMask s⟩,
      irqLine := true }
  let s2 := emit .raiseIrq s1
  if id = s.cfg.osTimerIrq.toNat then osRearm s2 else s2

/-- The acknowledge (R145): leave service and de-assert the CPU line, also when nothing was in service. -/
def acknowledge (s : State) : State := emit .lowerIrq (s.withIc { s.ic with active := none, irqLine := false })

/-- The value an IC_CURRENT read returns (R145). -/
def currentIrq (s : State) : Word :=
  match s.ic.active with
  | some x => irqIdValue s.cfg x.id
  | none => 0

/-- A line can be delivered now: it is enabled and nothing is in service (R142, R149). -/
def deliverable (s : State) (id : Nat) : Bool := (lineAt s id).enabled && s.ic.active.isNone

/-- `trigger(id, delay)` (R142): immediate delivery, or a countdown of `max(delay, 1)` that replaces any other; an id
outside the lines is the fatal stop. -/
def trigger (id d : Word) (s : State) : State :=
  if id.toNat < s.cfg.maxIrq then
    if d = 0 ∧ deliverable s id.toNat = true then deliver id.toNat s else setSched id.toNat (atLeastOne d) s
  else raiseFatal (.irqIdOutOfRange id) s

/-! ## The collaborators' answers (R64, R65) -/

/-- `sd_backend.do_command(cmd, arg)`. -/
def sdDoCommand (cmd : BitVec 6) (arg : BitVec 40) (s : State) : SdResponse × State :=
  let s1 := emit (.sdCommand cmd arg) s
  match s.env.sdResponses with
  | r :: rest => (r, s1.withEnv { s.env with sdResponses := rest })
  | [] => (Config.sdCommand s.env.draws cmd arg, s1.withEnv { s.env with draws := s.env.draws + 1 })

/-- `sd_backend.read_byte()`. -/
def sdReadByte (s : State) : Byte × State :=
  match s.env.sdBytes with
  | b :: rest => (b, s.withEnv { s.env with sdBytes := rest })
  | [] => (Config.sdReadByte s.env.draws, s.withEnv { s.env with draws := s.env.draws + 1 })

/-- `n` bytes from the SD backend, in stream order. -/
def sdReadBytes : Nat → State → List Byte × State
  | 0, s => ([], s)
  | n + 1, s =>
    let p := sdReadByte s
    let q := sdReadBytes n p.2
    (p.1 :: q.1, q.2)

/-- `sd_backend.write_byte` of each byte, in ascending order. -/
def sdWriteBytes : List Byte → State → State
  | [], s => s
  | b :: bs, s => sdWriteBytes bs (emit (.sdWriteByte b) s)

/-- `cf_backend.data_ready()`. -/
def cfDataReady (s : State) : Bool × State :=
  match s.env.cfReady with
  | b :: rest => (b, s.withEnv { s.env with cfReady := rest })
  | [] => (Config.cfDataReady s.env.draws, s.withEnv { s.env with draws := s.env.draws + 1 })

/-- `cf_backend.read_byte()`. -/
def cfReadByte (s : State) : Byte × State :=
  match s.env.cfBytes with
  | b :: rest => (b, s.withEnv { s.env with cfBytes := rest })
  | [] => (Config.cfReadByte s.env.draws, s.withEnv { s.env with draws := s.env.draws + 1 })

/-- `n` bytes from the CF backend, in stream order. -/
def cfReadBytes : Nat → State → List Byte × State
  | 0, s => ([], s)
  | n + 1, s =>
    let p := cfReadByte s
    let q := cfReadBytes n p.2
    (p.1 :: q.1, q.2)

/-- `cf_backend.write_byte` of each byte, in ascending order. -/
def cfWriteBytes : List Byte → State → State
  | [], s => s
  | b :: bs, s => cfWriteBytes bs (emit (.cfWriteByte b) s)

/-- `ide.ide_read(off)`. -/
def ideRead (off : Nat) (s : State) : Word × State :=
  let s1 := emit (.ideRead off) s
  match s.env.ideValues with
  | v :: rest => (v, s1.withEnv { s.env with ideValues := rest })
  | [] => (Config.ideRead s.env.draws off, s1.withEnv { s.env with draws := s.env.draws + 1 })

/-- Whether the IDE abstraction signalled `ide_cmd_complete` during the access just forwarded (R280). -/
def ideSignalled (s : State) : Bool × State :=
  match s.env.ideDone with
  | b :: rest => (b, s.withEnv { s.env with ideDone := rest })
  | [] => (Config.ideComplete s.env.draws, s.withEnv { s.env with draws := s.env.draws + 1 })

/-- `ide.ata_irq_enabled()`. -/
def ataIrqEnabled (s : State) : Bool × State :=
  match s.env.ataIrqEnabled with
  | b :: rest => (b, s.withEnv { s.env with ataIrqEnabled := rest })
  | [] => (Config.ataIrqEnabled s.env.draws, s.withEnv { s.env with draws := s.env.draws + 1 })

end Sys2Proof.Machine
end

