-- ==== Sys2Proof/Machine/Cf.lean ====
section
/-! DEFINITION. The CF/ATA controller: spec/46_storage.md rules R280 to R288. -/

namespace Sys2Proof.Machine

/-- `ide_cmd_complete` (R281): the flag and the owed trigger, when ATA interrupts are enabled. -/
def ideCompleted (s : State) : State :=
  let p := ataIrqEnabled s
  if p.1 then queueTrigger s.cfg.cfIrq 0 (p.2.withCf { s.cf with irqPending := true }) else p.2

/-- After an access forwarded to the IDE abstraction: rule R281 applies if it signalled a completion (R280). -/
def afterIde (s : State) : State :=
  let p := ideSignalled s
  if p.1 then ideCompleted p.2 else p.2

/-- CF_ATA_R (R280). -/
def execCfAtaR (off : Nat) (s : State) : Res :=
  let p := ideRead off s
  answer p.1 (afterIde p.2)

/-- CF_ATA_W (R280). -/
def execCfAtaW (off : Nat) (v : Word) (s : State) : Res := wrote (afterIde (emit (.ideWrite off v) s))

/-- CF_STATUS_R (R282): the acknowledge on read. -/
def execCfStatusR (s : State) : Res :=
  let p := ideRead s.cfg.cfStatusOff s
  answer p.1 (p.2.withCf { s.cf with irqPending := false })

/-- CF_IDE_DONE (R281), as an event of the IDE abstraction. -/
def execCfIdeDone (s : State) : Res := .next (ideCompleted s)

/-- CF_INTSTAT_R (R283): reading does not clear. -/
def execCfIntstatR (s : State) : Res := answer (flagWord s.cf.irqPending) s

/-- CF_DMAREG_W (R284): plain storage. -/
def execCfDmaregW (r : DmaReg) (v : Word) (s : State) : Res :=
  match r with
  | .addr => wrote (s.withCf { s.cf with dmaAddr := v })
  | .count => wrote (s.withCf { s.cf with dmaCount := v })

/-- CF_DMAREG_R (R284). -/
def execCfDmaregR (r : DmaReg) (s : State) : Res :=
  match r with
  | .addr => answer s.cf.dmaAddr s
  | .count => answer s.cf.dmaCount s

/-- CF_DMAEN_W (R285). -/
def execCfDmaenW (v : Word) (s : State) : Res := wrote (s.withCf { s.cf with dmaEnabled := controlBit v })

/-- CF_DMAEN_R (R285). -/
def execCfDmaenR (s : State) : Res := answer (flagWord s.cf.dmaEnabled) s

/-- The direction a CF_DMA_CTRL value asks for (R286, R100). -/
def cfDirOf (c : Cfg) (v : Word) : Option Dir :=
  if v = Config.cfDmaReadCmd then some .read else if v = c.cfDmaWriteCmd then some .write else none

/-- Flag a transfer (R286): one already pending is replaced, with a protocol diagnostic. -/
def cfFlag (dir : Dir) (s : State) : State :=
  let s1 := if s.cf.pendingDma.isSome then logEvent .protocol (.cfPending s.env.pc) s else s
  s1.withCf { s.cf with pendingDma := some ⟨dir, s.cf.dmaAddr, cfWords s.cf.dmaCount, 0⟩ }

/-- CF_DMA_REQ (R286): neither command is an unmodeled access; a request with CF DMA not enabled is the fatal stop. -/
def execCfDmaReq (v : Word) (s : State) : Res :=
  match cfDirOf s.cfg v with
  | none => wrote (logEvent .unmodeled (.cfDmaCtrl v s.env.pc) s)
  | some dir => if s.cf.dmaEnabled then wrote (cfFlag dir s) else .next (raiseFatal .cfDmaNotEnabled s)

/-- The guest address of the next word of a transfer (R287). -/
def cfWordAddr (p : CfDma) : Nat := p.addr.toNat + 4 * p.done.toNat

/-- Move one word of a transfer (R287), its four bytes in stream order at ascending addresses. -/
def cfMoveWord (p : CfDma) (s : State) : State :=
  match p.dir with
  | .read =>
    let r := cfReadBytes 4 s
    r.2.withMem (guestWrite s.mem (cfWordAddr p) r.1)
  | .write => (cfWriteBytes (guestRead s.mem (cfWordAddr p) 4) s).withMem (s.mem.after 1)

/-- The loop of a slice (R287): at most the given number of words, stopping at the end of the transfer and whenever
the backend is not ready. -/
def cfSliceLoop : Nat → CfDma → State → CfDma × State
  | 0, p, s => (p, s)
  | k + 1, p, s =>
    if p.done < p.words then
      let r := cfDataReady s
      if r.1 then cfSliceLoop k { p with done := p.done + 1 } (cfMoveWord p r.2) else (p, r.2)
    else (p, s)

/-- `cf_slice()` (R287): whether the transfer completed, and the state after the slice. -/
def cfSlice (s : State) : Bool × State :=
  match s.cf.pendingDma with
  | none => (false, s)
  | some p =>
    let r := cfSliceLoop s.cfg.cfSliceWords p s
    if r.1.done = r.1.words then (true, r.2.withCf { s.cf with pendingDma := none })
    else (false, r.2.withCf { s.cf with pendingDma := some r.1 })

/-- The phase after a CF sub-step (R370). -/
def phaseAfterCf (done : Bool) : TickPhase := if done then .cfIrq else .timers

/-- The CF sub-step of a tick (R287, R370): the slice, and which sub-step comes next. -/
def cfPhase (s : State) : State :=
  let r := cfSlice s
  setPhase (phaseAfterCf r.1) r.2

/-- CF_DMA_SLICE (R287), as a ticker step of its own. -/
def execCfDmaSlice (s : State) : Res := tickerStep cfPhase s

/-- The CF_IRQ sub-step of a tick (R288, R370). -/
def cfIrqPhase (s : State) : State := setPhase .timers (trigger s.cfg.cfDmaIrq 0 s)

/-- CF_DMA_IRQ (R288), as a ticker step of its own. -/
def execCfDmaIrq (s : State) : Res := tickerStep cfIrqPhase s

end Sys2Proof.Machine
end

