-- ==== Sys2Proof/Machine/Dispatcher.lean ====
section
/-! DEFINITION. The dispatcher's own operations: spec/41_dispatcher.md rules R123 to R126. -/

namespace Sys2Proof.Machine

/-- The limiter after an access to the unknown address `a` (R126): the count goes on for the same address and restarts
at 1 for another. -/
def limited (a : Word) (l : Limiter) : Limiter :=
  if l.lastUnknown = some a then { l with count := l.count + 1 } else ⟨some a, 1⟩

/-- `unknown_access` (R126): the limiter counts, and at most `LOG_REPEAT_LIMIT` consecutive repeats are logged. -/
def unknownAccess (a : Word) (write : Bool) (v : Word) (s : State) : State :=
  let s1 := s.withLim (limited a s.lim)
  if s1.lim.count ≤ Config.logRepeatLimit then logEvent .unknown (.access a write v s.env.pc) s1 else s1

/-- ACC_UNKNOWN_R (R126). -/
def execAccUnknownR (a : Word) (s : State) : Res := answer 0 (unknownAccess a false 0 s)

/-- ACC_UNKNOWN_W (R126). -/
def execAccUnknownW (a v : Word) (s : State) : Res := wrote (unknownAccess a true v s)

/-- ACC_DEFAULT_R (R123): 0, silently, whatever the address in its known region. -/
def execAccDefaultR (_a : Word) (s : State) : Res := answer 0 s

/-- ACC_DEFAULT_W (R123): nothing. -/
def execAccDefaultW (_a _v : Word) (s : State) : Res := wrote s

/-- ACC_UNMODELED_R (R124). -/
def execAccUnmodeledR (a : Word) (s : State) : Res := answer 0 (logUnmodeled a false 0 s)

/-- ACC_UNMODELED_W (R124). -/
def execAccUnmodeledW (a v : Word) (s : State) : Res := wrote (logUnmodeled a true v s)

/-- MODEL_CONST_R (R125); an address with no constant is an unmodeled access (R124). -/
def execModelConstR (a : Word) (s : State) : Res :=
  match modelConstAt s.cfg a with
  | some c => answer c s
  | none => answer 0 (logUnmodeled a false 0 s)

end Sys2Proof.Machine
end

