-- ==== Sys2Proof/Machine/Display.lean ====
section
/-! DEFINITION. The display registers and the DisplayCompositor: spec/48_compositor_ticker.md rules R350 to R363. -/

namespace Sys2Proof.Machine

/-- PAL4_W (R350). -/
def execPal4W (i : Nat) (v : Word) (s : State) : Res :=
  wrote (s.withDisp { s.disp with pal4 := s.disp.pal4.set i (palEntry v), invalidateAll := true })

/-- PAL4_R (R350). -/
def execPal4R (i : Nat) (s : State) : Res := answer (palValue (s.disp.pal4.getD i ⟨0, 0, 0, 0⟩)) s

/-- PAL8_W (R351). -/
def execPal8W (i : Nat) (v : Word) (s : State) : Res :=
  wrote (s.withDisp { s.disp with pal8 := s.disp.pal8.set i (palEntry v), invalidateAll := true })

/-- PAL8_R (R351). -/
def execPal8R (i : Nat) (s : State) : Res := answer (palValue (s.disp.pal8.getD i ⟨0, 0, 0, 0⟩)) s

/-- PLANE_ADDR_W (R352). -/
def execPlaneAddrW (p : Plane) (v : Word) (s : State) : Res :=
  match p with
  | .bmp => wrote (s.withDisp { s.disp with bmpAddr := v, invalidateAll := true })
  | .yuv => wrote (s.withDisp { s.disp with yuvAddr := v, invalidateAll := true })

/-- PLANE_ADDR_R (R352). -/
def execPlaneAddrR (p : Plane) (s : State) : Res :=
  match p with
  | .bmp => answer s.disp.bmpAddr s
  | .yuv => answer s.disp.yuvAddr s

/-! ## Composition -/

/-- `clip` (R10): to [0, 255]. -/
def clip (x : Int) : Nat := (max 0 (min 255 x)).toNat

/-- An RGB32 word `0x00RRGGBB` (R354). -/
def rgb (r g b : Nat) : Word := BitVec.ofNat 32 (r * 65536 + g * 256 + b)

/-- `yuv2rgb(Y, U, V)` (R355): `/` on an integer by 1024 is the floor division the rule asks for. -/
def yuv2rgb (m : YuvMatrix) (y u v : Byte) : Word :=
  let yy : Int := y.toNat
  let d : Int := (u.toNat : Int) - 128
  let e : Int := (v.toNat : Int) - 128
  match m with
  | .bt601 =>
    rgb (clip (yy + 1436 * e / 1024)) (clip (yy - (352 * d + 731 * e) / 1024)) (clip (yy + 1815 * d / 1024))
  | .bt709 =>
    rgb (clip (yy + 1613 * e / 1024)) (clip (yy - (192 * d + 479 * e) / 1024)) (clip (yy + 1900 * d / 1024))

/-- The rows of a plane as read now, one `MemRead` call for each (R358, R359). -/
def planeRows (g : Guest) (addr : Word) (pitch rows : Nat) : List (List Byte) :=
  (List.range rows).map (fun y => guestRead (g.after y) (addr.toNat + y * pitch) pitch)

/-- `rb` (R359). -/
def bmpRows (s : State) : List (List Byte) := planeRows s.mem s.disp.bmpAddr s.cfg.bmpPitch s.cfg.bmpH

/-- `ry` (R359), read after `rb`: `none` when there is no YUV plane (R352). -/
def yuvRows (s : State) : Option (List (List Byte)) :=
  if s.disp.yuvAddr = 0 then none
  else some (planeRows (s.mem.after s.cfg.bmpH) s.disp.yuvAddr s.cfg.yuvPitch s.cfg.yuvH)

/-- How many `MemRead` calls a composite makes (R359). -/
def planeReads (s : State) : Nat := s.cfg.bmpH + if s.disp.yuvAddr = 0 then 0 else s.cfg.yuvH

/-- The YUV row that output row `y` depends on (R357). -/
def yuvRowOf (c : Cfg) (y : Nat) : Nat := y * c.yuvH / c.bmpH

/-- Row `y` is dirty (R357). -/
def rowDirty (s : State) (rb : List (List Byte)) (ry : Option (List (List Byte))) (y : Nat) : Bool :=
  s.disp.invalidateAll || s.disp.seenBmp.isNone || decide (s.disp.seenBmp.bind (·[y]?) ≠ rb[y]?) ||
    (ry.isSome != s.disp.seenYuv.isSome) ||
    (ry.isSome && decide (s.disp.seenYuv.bind (·[yuvRowOf s.cfg y]?) ≠ ry.bind (·[yuvRowOf s.cfg y]?)))

/-- `D` (R359), in ascending order. -/
def dirtyRows (s : State) (rb : List (List Byte)) (ry : Option (List (List Byte))) : List Nat :=
  (List.range s.cfg.bmpH).filter (rowDirty s rb ry)

/-- A byte of a row. Every byte asked for is there: a plane's pitch holds its row (R353). -/
def byteOf (row : List Byte) (i : Nat) : Byte := row.getD i 0

/-- The colour of YUV pixel `xs` of a row (R353): two pixels share four bytes. -/
def yuvPixel (c : Cfg) (row : List Byte) (xs : Nat) : Word :=
  let p := 4 * (xs / 2)
  yuv2rgb c.yuvMatrix
    (byteOf row (p + if xs % 2 = 0 then c.yuvLayout.y0 else c.yuvLayout.y1))
    (byteOf row (p + c.yuvLayout.u)) (byteOf row (p + c.yuvLayout.v))

/-- The colour of the YUV sample of bitmap pixel `(x, y)` (R353): free where the plane has no such sample
(notes/assumptions/28.md). -/
def yuvColour (c : Cfg) (rows : List (List Byte)) (y x : Nat) : Word :=
  let xs := x * c.yuvW / c.bmpW
  let ys := yuvRowOf c y
  if xs < c.yuvW ∧ ys < c.yuvH then yuvPixel c (rows.getD ys []) xs
  else
    let p := Config.yuvNoSample x y
    yuv2rgb c.yuvMatrix p.1 p.2.1 p.2.2

/-- `pixel(x, y)` (R354) from the rows read. -/
def pixel (c : Cfg) (pal : List PaletteEntry) (rb : List (List Byte)) (ry : Option (List (List Byte)))
    (y x : Nat) : Word :=
  let i := byteOf (rb.getD y []) x
  if i = 0 then
    match ry with
    | none => 0
    | some rows => yuvColour c rows y x
  else
    let p := pal.getD i.toNat ⟨0, 0, 0, 0⟩
    rgb p.r.toNat p.g.toNat p.b.toNat

/-- Row `y` of the output (R356). -/
def outputRow (s : State) (rb : List (List Byte)) (ry : Option (List (List Byte))) (y : Nat) : List Word :=
  (List.range s.cfg.bmpW).map (pixel s.cfg s.disp.pal8 rb ry y)

/-- `sink.resize` in the first composite (R356, R359). -/
def sinkResize (s : State) : State :=
  if s.disp.seenBmp.isNone then
    emit (.resize s.cfg.bmpW s.cfg.bmpH) (s.withSurface (List.replicate s.cfg.bmpH (List.replicate s.cfg.bmpW 0)))
  else s

/-- Redraw rows `first` to `last` of a surface. -/
def redraw (first last : Nat) (row : Nat → List Word) (surface : List (List Word)) : List (List Word) :=
  surface.mapIdx (fun y old => if first ≤ y ∧ y ≤ last then row y else old)

/-- Draw the span of the dirty rows and report it (R359, R360). -/
def sinkBlit (dirty : List Nat) (row : Nat → List Word) (s : State) : State :=
  match dirty.head?, dirty.getLast? with
  | some first, some last => emit (.blitRows first last) (s.withSurface (redraw first last row s.surface))
  | _, _ => s

/-- `compose()` (R359). -/
def compose (s : State) : State :=
  let rb := bmpRows s
  let ry := yuvRows s
  ((sinkBlit (dirtyRows s rb ry) (outputRow s rb ry) (sinkResize s)).withDisp
    { s.disp with seenBmp := some rb, seenYuv := ry, invalidateAll := false }).withMem (s.mem.after (planeReads s))

/-- DISP_COMPOSE (R359). -/
def execDispCompose (s : State) : Res := .next (compose s)

/-- DISP_INVALIDATE (R363). -/
def execDispInvalidate (s : State) : Res := .next (s.withDisp { s.disp with invalidateAll := true })

end Sys2Proof.Machine
end

