-- ==== Sys2Proof/Machine/Dma.lean ====
section
/-! DEFINITION. The DmaEngine: spec/44_dma.md rules R210 to R213. -/

namespace Sys2Proof.Machine

/-- DMA_SRC_W (R210). -/
def execDmaSrcW (c : Nat) (v : Word) (s : State) : Res := wrote (modDma c (fun d => { d with src := v }) s)

/-- DMA_SRC_R (R210). -/
def execDmaSrcR (c : Nat) (s : State) : Res := answer (dmaAt s c).src s

/-- DMA_DST_W (R211). -/
def execDmaDstW (c : Nat) (v : Word) (s : State) : Res := wrote (modDma c (fun d => { d with dst := v }) s)

/-- DMA_DST_R (R211). -/
def execDmaDstR (c : Nat) (s : State) : Res := answer (dmaAt s c).dst s

/-- DMA_COUNT_W (R212). -/
def execDmaCountW (c : Nat) (v : Word) (s : State) : Res := wrote (modDma c (fun d => { d with count := v }) s)

/-- DMA_COUNT_R (R212). -/
def execDmaCountR (c : Nat) (s : State) : Res := answer (dmaAt s c).count s

/-- One block of a copy (R213): read whole, then written. -/
def dmaBlockCopy (block src dst n : Nat) (g : Guest) (j : Nat) : Guest :=
  guestWrite (g.after 1) (dst + j * block) (guestRead g (src + j * block) (min block (n - j * block)))

/-- The copy of `n` bytes in blocks of `block` bytes, in ascending order (R213). -/
def dmaCopy (block src dst n : Nat) (g : Guest) : Guest :=
  (List.range ((n + block - 1) / block)).foldl (dmaBlockCopy block src dst n) g

/-- The completion delay of a transfer of `count` bytes: `count div DMA_K` (R213). -/
def dmaDelay (c : Cfg) (count : Word) : Word := BitVec.ofNat 32 (count.toNat / c.dmaK)

/-- `dma_start(c)` (R213): the whole copy, then the owed trigger. -/
def dmaRun (c : Nat) (s : State) : State :=
  let d := dmaAt s c
  queueTrigger (s.cfg.dmaIrq.getD c 0) (dmaDelay s.cfg d.count)
    (s.withMem (dmaCopy s.cfg.dmaBlock d.src.toNat d.dst.toNat d.count.toNat s.mem))

/-- DMA_START (R213): a write whose bit 0 is 0 does nothing. -/
def execDmaStart (c : Nat) (v : Word) (s : State) : Res := if controlBit v then wrote (dmaRun c s) else wrote s

end Sys2Proof.Machine
end

