-- ==== Sys2Proof/Machine/Edmac.lean ====
section
/-! DEFINITION. The EdmacEngine and the ConnectionMatrix: spec/45_edmac.md rules R230 to R239. -/

namespace Sys2Proof.Machine

/-- EDM_REG_W (R230). -/
def execEdmRegW (r : EdmacReg) (ch : Nat) (v : Word) (s : State) : Res :=
  wrote (modEdmac ch (fun e => { e with regs := e.regs.set r v }) s)

/-- EDM_REG_R (R230). -/
def execEdmRegR (r : EdmacReg) (ch : Nat) (s : State) : Res := answer ((edmacAt s ch).regs.get r) s

/-- `EDMAC_IS_WRITE(ch)` (R231). -/
def edmacIsWrite (c : Cfg) (ch : Nat) : Bool := (c.edmac[ch]?.map (·.isWrite)).getD false

/-- `EDMAC_IRQ(ch)` (R232). -/
def edmacIrq (c : Cfg) (ch : Nat) : Option Word := c.edmac[ch]?.bind (·.irq)

/-- The least connection that reads from channel `ch` (R235). -/
def readConnOf (m : ConnMatrix) (ch : Nat) : Option Word :=
  ((List.range Config.nConn).find? (fun i => m.readConn[i]? == some (some ch))).map (BitVec.ofNat 32)

/-- `resolve(ch)` (R235), from the matrix as it stands. -/
def resolveConn (s : State) (ch : Nat) : Option Word :=
  if edmacIsWrite s.cfg ch then (s.conn.writeConn[ch]?).join else readConnOf s.conn ch

/-- The channel after a start (R233): the connection is recorded and the start counted. -/
def edmacStarted (conn : Option Word) (e : EdmacChannel) : EdmacChannel :=
  { e with lastConn := conn, started := e.started + 1 }

/-- EDM_START (R233, R236): a channel with no interrupt-table entry is the fatal stop, checked first. -/
def execEdmStart (ch : Nat) (v : Word) (s : State) : Res :=
  if controlBit v then
    match edmacIrq s.cfg ch with
    | none => .next (raiseFatal (.edmacNoIrq ch) s)
    | some id => wrote (queueTrigger id 0 (modEdmac ch (edmacStarted (resolveConn s ch)) s))
  else wrote s

/-- The channel that raw offset `off` of a sub-range names (R237): a slot is 4 bytes. -/
def chswChannel (c : Cfg) (sub : ChswSub) (off : Nat) : Option Nat :=
  if off % 4 = 0 then ((c.chsw sub).map[off / 4]?).join else none

/-- `Log(Unmodeled)` of a channel-switch write (R237). -/
def logChsw (sub : ChswSub) (off : Nat) (v : Word) (s : State) : State :=
  logEvent .unmodeled (.chsw sub off v s.env.pc) s

/-- A write in a read-assignment sub-range (R237). -/
def chswReadAssign (sub : ChswSub) (off : Nat) (v : Word) (s : State) : State :=
  match chswChannel s.cfg sub off with
  | none => logChsw sub off v s
  | some ch =>
    if v.toNat < Config.nConn then
      s.withConn { s.conn with readConn := s.conn.readConn.set v.toNat (some ch) }
    else logChsw sub off v s

/-- A write in a write-assignment sub-range (R238). -/
def chswWriteAssign (sub : ChswSub) (off : Nat) (v : Word) (s : State) : State :=
  match chswChannel s.cfg sub off with
  | none => logChsw sub off v s
  | some ch => s.withConn { s.conn with writeConn := s.conn.writeConn.set ch (some v) }

/-- CHSW_R_W (R237): sub-range R0, or R1 when `second`. -/
def execChswRW (second : Bool) (off : Nat) (v : Word) (s : State) : Res :=
  wrote (chswReadAssign (if second then .r1 else .r0) off v s)

/-- CHSW_W_W (R238): sub-range W0, or W1 when `second`. -/
def execChswWW (second : Bool) (off : Nat) (v : Word) (s : State) : Res :=
  wrote (chswWriteAssign (if second then .w1 else .w0) off v s)

/-- CHSW_READ (R239): reads are an unmodeled access by design. -/
def execChswRead (a : Word) (s : State) : Res := answer 0 (logUnmodeled a false 0 s)

end Sys2Proof.Machine
end

