-- ==== Sys2Proof/Machine/Flash.lean ====
section
/-! DEFINITION. The FlashController: spec/47_flash.md rules R310 to R330. The decoder chooses the row of a cycle from
the bank's state (`selectFlashWrite`, `selectFlashRead`); a row's meaning run where it is not the chosen row does what
the access does there, so every meaning is right in every state (notes/assumptions/18.md). -/

namespace Sys2Proof.Machine

/-- `B(i)` (R311): a byte of the bank, 0 beyond it. -/
def bankByte (c : Cfg) (s : State) (b i : Nat) : Byte :=
  if i < c.bankSize b then memRead Config.erasedByte (bankAt s b).image i else 0

/-- `rd32(b, off)` (R311). -/
def bankRead (s : State) (b off : Nat) : Word :=
  le32 (bankByte s.cfg s b off) (bankByte s.cfg s b (off + 1)) (bankByte s.cfg s b (off + 2)) (bankByte s.cfg s b (off + 3))

/-- Set the state of a bank. -/
def setFlash (b : Nat) (st : FlashState) (s : State) : State := modBank b (fun x => { x with state := st }) s

/-- `chip_erase(b)` (R319). -/
def chipErase (b : Nat) (s : State) : State :=
  modBank b (fun x => { x with state := .read, image := memErase 0 (s.cfg.bankSize b) x.image }) s

/-- The first byte of the block holding a byte offset (R320). -/
def blockBase (c : Cfg) (off : Nat) : Nat := off - off % c.flashBlockSize

/-- The end of the block holding a byte offset, or of the bank (R320). -/
def blockEnd (c : Cfg) (b off : Nat) : Nat := min (blockBase c off + c.flashBlockSize) (c.bankSize b)

/-- `block_erase(b, off)` (R320). -/
def blockErase (b off : Nat) (s : State) : State :=
  modBank b (fun x =>
    { state := .blockEraseBusy, busyReads := 0,
      image := memErase (blockBase s.cfg off) (blockEnd s.cfg b off) x.image }) s

/-- Program one word of an image of `size` bytes: the AND with what it holds (R325). -/
def programWord (size w : Nat) (v : Half) (m : Memory) : Memory :=
  if 2 * w + 1 < size then
    let old := le16 (memRead Config.erasedByte m (2 * w)) (memRead Config.erasedByte m (2 * w + 1))
    let new := old &&& v
    memWrite (some Config.erasedByte) (memWrite (some Config.erasedByte) m (2 * w) (new.extractLsb' 0 8)) (2 * w + 1)
      (new.extractLsb' 8 8)
  else m

/-- The programming write (R325). -/
def programData (b off : Nat) (v : Word) (s : State) : State :=
  modBank b (fun x =>
    { x with state := .read, image := programWord (s.cfg.bankSize b) (flashWoff off) (flashValue v) x.image }) s

/-- The unexpected cycle (R327): a diagnostic, and the bank goes back to READ. -/
def badCycle (b off : Nat) (v : Word) (s : State) : State :=
  logEvent .protocol (.flash b (bankAt s b).state (flashWoff off) (flashValue v) s.env.pc)
    (modBank b (fun x => { x with state := .read, busyReads := 0 }) s)

/-- The two bytes of a pass-through write (R330). -/
def passBytes (size off : Nat) (v : Word) (m : Memory) : Memory :=
  if off < size then
    let m1 := memWrite (some Config.erasedByte) m off (v.extractLsb' 0 8)
    if off + 1 < size then memWrite (some Config.erasedByte) m1 (off + 1) (v.extractLsb' 8 8) else m1
  else m

/-- The pass-through write (R330): `state` stays READ and `busy_reads` 0. -/
def passWrite (b off : Nat) (v : Word) (s : State) : State :=
  modBank b (fun x => { x with image := passBytes (s.cfg.bankSize b) off v x.image }) s

/-- The row that a write is, in the bank's state (R329). -/
def writeRow (s : State) (b off : Nat) (v : Word) : FlashWrite := selectFlashWrite s.cfg (bankAt s b).state off v

/-- The effect of a write on the bank: the transition function R329. -/
def flashCycle (b off : Nat) (v : Word) (s : State) : State :=
  match writeRow s b off v with
  | .unlock1 => setFlash b .unlock2 s
  | .unlock2 => setFlash b .unlocked s
  | .cmdProgram => setFlash b .program s
  | .cmdErase => setFlash b .erase1 s
  | .eraseUnlock1 => setFlash b .erase2 s
  | .eraseUnlock2 => setFlash b .erase3 s
  | .chipErase => chipErase b s
  | .blockErase => blockErase b off s
  | .bypassEraseEntry => setFlash b .unlockBypassErase s
  | .bypassProgramEntry => setFlash b .program s
  | .bypassChipErase => chipErase b s
  | .bypassBlockErase => blockErase b off s
  | .programData => programData b off v s
  | .badCycle => badCycle b off v s
  | .pass => passWrite b off v s

/-- A write that its row `w` handles by `eff`; where the write is another row, that row's effect. -/
def flashRow (w : FlashWrite) (eff : State → State) (b off : Nat) (v : Word) (s : State) : Res :=
  wrote (if writeRow s b off v = w then eff s else flashCycle b off v s)

/-- The `k`-th busy status (R328). -/
def toggleStatus (c : Cfg) (k : BitVec 8) : Word :=
  (if k.toNat % 2 = 0 then c.flashToggle0 else c.flashToggle1).setWidth 32

/-- The value of a read in BLOCK_ERASE_BUSY (R328). -/
def busyValue (s : State) (b : Nat) : Word :=
  if (bankAt s b).busyReads.toNat < s.cfg.flashBusyReads then toggleStatus s.cfg (bankAt s b).busyReads
  else Config.flashDoneStatus

/-- The state after a read in BLOCK_ERASE_BUSY (R328). -/
def busyRead (b : Nat) (s : State) : State :=
  if (bankAt s b).busyReads.toNat < s.cfg.flashBusyReads then
    modBank b (fun x => { x with busyReads := x.busyReads + 1 }) s
  else modBank b (fun x => { x with state := .read, busyReads := 0 }) s

/-- A read of a bank, by its row (R312, R328, R330). -/
def flashReadAccess (b off : Nat) (s : State) : Res :=
  match selectFlashRead s.cfg (bankAt s b).state with
  | .data => answer (bankRead s b off) s
  | .busy => answer (busyValue s b) (busyRead b s)
  | .pass => answer (bankRead s b off) s

/-- FL_READ (R312). -/
def execFlRead (b off : Nat) (s : State) : Res :=
  if selectFlashRead s.cfg (bankAt s b).state = .data then answer (bankRead s b off) s else flashReadAccess b off s

/-- FL_BUSY_READ (R328). -/
def execFlBusyRead (b off : Nat) (s : State) : Res :=
  if selectFlashRead s.cfg (bankAt s b).state = .busy then answer (busyValue s b) (busyRead b s)
  else flashReadAccess b off s

/-- FL_UNLOCK1 (R313). -/
def execFlUnlock1 (b off : Nat) (v : Word) (s : State) : Res := flashRow .unlock1 (setFlash b .unlock2) b off v s

/-- FL_UNLOCK2 (R314). -/
def execFlUnlock2 (b off : Nat) (v : Word) (s : State) : Res := flashRow .unlock2 (setFlash b .unlocked) b off v s

/-- FL_CMD_PROGRAM (R315). -/
def execFlCmdProgram (b off : Nat) (v : Word) (s : State) : Res :=
  flashRow .cmdProgram (setFlash b .program) b off v s

/-- FL_CMD_ERASE (R316). -/
def execFlCmdErase (b off : Nat) (v : Word) (s : State) : Res := flashRow .cmdErase (setFlash b .erase1) b off v s

/-- FL_ERASE_UNLOCK1 (R317). -/
def execFlEraseUnlock1 (b off : Nat) (v : Word) (s : State) : Res :=
  flashRow .eraseUnlock1 (setFlash b .erase2) b off v s

/-- FL_ERASE_UNLOCK2 (R318). -/
def execFlEraseUnlock2 (b off : Nat) (v : Word) (s : State) : Res :=
  flashRow .eraseUnlock2 (setFlash b .erase3) b off v s

/-- FL_CHIP_ERASE (R319). -/
def execFlChipErase (b off : Nat) (v : Word) (s : State) : Res := flashRow .chipErase (chipErase b) b off v s

/-- FL_BLOCK_ERASE (R320). -/
def execFlBlockErase (b off : Nat) (v : Word) (s : State) : Res := flashRow .blockErase (blockErase b off) b off v s

/-- FL_BYPASS_ERASE_ENTRY (R321). -/
def execFlBypassEraseEntry (b off : Nat) (v : Word) (s : State) : Res :=
  flashRow .bypassEraseEntry (setFlash b .unlockBypassErase) b off v s

/-- FL_BYPASS_PROGRAM_ENTRY (R322). -/
def execFlBypassProgramEntry (b off : Nat) (v : Word) (s : State) : Res :=
  flashRow .bypassProgramEntry (setFlash b .program) b off v s

/-- FL_BYPASS_CHIP_ERASE (R323). -/
def execFlBypassChipErase (b off : Nat) (v : Word) (s : State) : Res :=
  flashRow .bypassChipErase (chipErase b) b off v s

/-- FL_BYPASS_BLOCK_ERASE (R324). -/
def execFlBypassBlockErase (b off : Nat) (v : Word) (s : State) : Res :=
  flashRow .bypassBlockErase (blockErase b off) b off v s

/-- FL_PROGRAM_DATA (R325). -/
def execFlProgramData (b off : Nat) (v : Word) (s : State) : Res :=
  flashRow .programData (programData b off v) b off v s

/-- FL_BAD_CYCLE (R327). -/
def execFlBadCycle (b off : Nat) (v : Word) (s : State) : Res := flashRow .badCycle (badCycle b off v) b off v s

/-- FL_PASS_R (R330). -/
def execFlPassR (b off : Nat) (s : State) : Res :=
  if selectFlashRead s.cfg (bankAt s b).state = .pass then answer (bankRead s b off) s else flashReadAccess b off s

/-- FL_PASS_W (R330). -/
def execFlPassW (b off : Nat) (v : Word) (s : State) : Res := flashRow .pass (passWrite b off v) b off v s

end Sys2Proof.Machine
end

