-- ==== Sys2Proof/Machine/Interrupt.lean ====
section
/-! DEFINITION. The interrupt controller's operations: spec/42_interrupt_controller.md rules R142, R145 to R149. -/

namespace Sys2Proof.Machine

/-- IC_TRIGGER (R142). -/
def execIcTrigger (id delay : Word) (s : State) : Res := .next (trigger id delay s)

/-- IC_ACK (R145): the in-service id, then the acknowledge. -/
def execIcAck (s : State) : Res := answer (currentIrq s) (acknowledge s)

/-- IC_ENABLE_W (R146): an id outside the lines is an unmodeled access. -/
def execIcEnableW (v : Word) (s : State) : Res :=
  if v.toNat < s.cfg.maxIrq then wrote (setEnabled v.toNat true s)
  else wrote (logEvent .unmodeled (.icEnable v s.env.pc) s)

/-- Disable one line (R147); the CPU line goes down if it was this line that is in service, which stays in service. -/
def disableLine (s : State) (id : Nat) : State :=
  let s1 := setEnabled id false s
  if s.ic.active.map (·.id) = some id then emit .lowerIrq (s1.withIc { s1.ic with irqLine := false }) else s1

/-- IC_DISABLE_W (R147). -/
def execIcDisableW (k : Nat) (v : Word) (s : State) : Res := wrote ((maskLines s.cfg.maxIrq k v).foldl disableLine s)

/-- The walk order of a tick (R148): highest id first, the OS timer's line last. -/
def walkOrder (c : Cfg) : List Nat :=
  (List.range c.maxIrq).reverse.filter (fun id => decide (id ≠ c.osTimerIrq.toNat)) ++ [c.osTimerIrq.toNat]

/-- One line of the tick walk (R149): count down above 1; at 1 deliver if the line is deliverable, else wait. -/
def walkLine (s : State) (id : Nat) : State :=
  if 1 < (lineAt s id).sched then setSched id ((lineAt s id).sched - 1) s
  else if (lineAt s id).sched = 1 ∧ deliverable s id = true then deliver id (setSched id 0 s)
  else s

/-- `tick_walk()` (R149). -/
def tickWalk (s : State) : State := (walkOrder s.cfg).foldl walkLine s

/-- IC_TICK_WALK (R149), as a ticker step of its own. -/
def execIcTickWalk (s : State) : Res := tickerStep tickWalk s

end Sys2Proof.Machine
end

