-- ==== Sys2Proof/Machine/Sdio.lean ====
section
/-! DEFINITION. The SDIO controller: spec/46_storage.md rules R260 to R272. -/

namespace Sys2Proof.Machine

/-- SD_CMDLO_W (R260). -/
def execSdCmdloW (v : Word) (s : State) : Res := wrote (s.withSd { s.sd with cmdLo := v })

/-- SD_CMDLO_R (R260). -/
def execSdCmdloR (s : State) : Res := answer s.sd.cmdLo s

/-- SD_CMDHI_W (R261). -/
def execSdCmdhiW (v : Word) (s : State) : Res := wrote (s.withSd { s.sd with cmdHi := v })

/-- SD_CMDHI_R (R261). -/
def execSdCmdhiR (s : State) : Res := answer s.sd.cmdHi s

/-- SD_DMAREG_W (R262): plain storage. -/
def execSdDmaregW (r : DmaReg) (v : Word) (s : State) : Res :=
  match r with
  | .addr => wrote (s.withSd { s.sd with dmaAddr := v })
  | .count => wrote (s.withSd { s.sd with dmaCount := v })

/-- SD_DMAREG_R (R262). -/
def execSdDmaregR (r : DmaReg) (s : State) : Res :=
  match r with
  | .addr => answer s.sd.dmaAddr s
  | .count => answer s.sd.dmaCount s

/-- `sd_complete(cmd, r)` on the controller's state (R265). -/
def sdCompleted (c : Cfg) (cmd : BitVec 6) (r : SdResponse) (x : SdState) : SdState :=
  match r with
  | .fail => { x with status := sdStatusFail c, irqPending := true }
  | r =>
    { x with
      resp := sdPacked c r
      status := sdStatusDone c
      outstanding := if sdIsData cmd then some ⟨cmd, sdDir cmd, sdIsMulti cmd⟩ else x.outstanding
      irqPending := if sdIsData cmd && sdIsMulti cmd then x.irqPending else true }

/-- The bytes of a data phase moved (R266): whole word-quads, device to memory or memory to device. -/
def sdMove (dir : Dir) (s : State) : State :=
  match dir with
  | .read =>
    let p := sdReadBytes (sdBytes s.sd.dmaCount) s
    p.2.withMem (guestWrite s.mem s.sd.dmaAddr.toNat p.1)
  | .write =>
    (sdWriteBytes (guestRead s.mem s.sd.dmaAddr.toNat (sdBytes s.sd.dmaCount)) s).withMem (s.mem.after 1)

/-- The controller's state after a data phase (R266). -/
def sdPhaseDone (c : Cfg) (o : SdOutstanding) (x : SdState) : SdState :=
  { x with
    dmaProgress := BitVec.ofNat 32 (sdBytes x.dmaCount)
    status := sdStatusData c x.status
    outstanding := none
    irqPending := o.multi || x.irqPending }

/-- `sd_try_data()` (R266): the data phase runs, whole, when a data command is outstanding and DMA is enabled. -/
def sdTryData (s : State) : State :=
  match s.sd.outstanding with
  | none => s
  | some o =>
    if s.sd.dmaEnabled then (sdMove o.dir s).withSd (sdPhaseDone s.cfg o s.sd) else s

/-- `sd_try_irq()` (R271): a completion is handed to the controller at most once. -/
def sdTryIrq (s : State) : State :=
  if s.sd.irqPending && s.sd.irqEn then
    (queueTrigger s.cfg.sdIrq 0 s).withSd { s.sd with irqPending := false }
  else s

/-- SD_DMACTRL_W (R263). -/
def execSdDmactrlW (v : Word) (s : State) : Res :=
  wrote (sdTryIrq (sdTryData (s.withSd { s.sd with dmaEnabled := controlBit v })))

/-- SD_DMACTRL_R (R263). -/
def execSdDmactrlR (s : State) : Res := answer (flagWord s.sd.dmaEnabled) s

/-- The protocol diagnostic of a command issued while a data phase is outstanding (R264). -/
def sdLogOutstanding (s : State) : State :=
  if s.sd.outstanding.isSome then logEvent .protocol (.sdOutstanding s.env.pc) s else s

/-- The controller cleared for a new command (R264). -/
def sdCleared (x : SdState) : SdState := { x with outstanding := none, status := 0, dmaProgress := 0 }

/-- The command token of the two command registers (R264, R96). -/
def sdTokenOf (s : State) : BitVec 48 := sdToken s.sd.cmdHi s.sd.cmdLo

/-- `sd_issue()` up to the command's completion (R264, R265). -/
def sdCommand (s : State) : State :=
  let t := sdTokenOf s
  let s1 := (sdLogOutstanding s).withSd (sdCleared s.sd)
  let p := sdDoCommand (sdCmd t) (sdArg t) s1
  p.2.withSd (sdCompleted s.cfg (sdCmd t) p.1 p.2.sd)

/-- SD_ISSUE (R264): a write whose bit 0 is 0 does nothing. -/
def execSdIssue (v : Word) (s : State) : Res :=
  if controlBit v then wrote (sdTryIrq (sdTryData (sdCommand s))) else wrote s

/-- SD_RESP_R (R267). -/
def execSdRespR (i : Nat) (s : State) : Res := answer (s.sd.resp.word i) s

/-- SD_PROGRESS_R (R268). -/
def execSdProgressR (s : State) : Res := answer s.sd.dmaProgress s

/-- SD_IRQEN_W (R270). -/
def execSdIrqenW (v : Word) (s : State) : Res := wrote (sdTryIrq (s.withSd { s.sd with irqEn := controlBit v }))

/-- SD_IRQEN_R (R270). -/
def execSdIrqenR (s : State) : Res := answer (flagWord s.sd.irqEn) s

/-- SD_STATUS_R (R272): reading does not clear. -/
def execSdStatusR (s : State) : Res := answer s.sd.status s

end Sys2Proof.Machine
end

