-- ==== Sys2Proof/Machine/Timer.lean ====
section
/-! DEFINITION. The free-running clock, the TimerBank and the HPTimerBank: spec/43_timers.md rules R180 to R196. -/

namespace Sys2Proof.Machine

/-- TMR_CTRL_W (R182): start or stop; a start of the OS channel arms its schedule. -/
def execTmrCtrlW (n : Nat) (v : Word) (s : State) : Res :=
  if controlBit v then
    let s1 := modTmr n (fun t => { t with enabled := true }) s
    wrote (if n = s.cfg.osTimerCh then osArm s1 else s1)
  else wrote (modTmr n (fun t => { t with enabled := false }) s)

/-- TMR_CTRL_R (R183). -/
def execTmrCtrlR (n : Nat) (s : State) : Res := answer (flagWord (tmrAt s n).enabled) s

/-- TMR_RELOAD_W (R184). -/
def execTmrReloadW (n : Nat) (v : Word) (s : State) : Res := wrote (modTmr n (fun t => { t with reload := v }) s)

/-- TMR_RELOAD_R (R184). -/
def execTmrReloadR (n : Nat) (s : State) : Res := answer (tmrAt s n).reload s

/-- TMR_VALUE_R (R188). -/
def execTmrValueR (n : Nat) (s : State) : Res := answer (tmrAt s n).current s

/-- CLOCK_R (R185). -/
def execClockR (s : State) : Res := answer s.clock s

/-- A timer channel after one tick (R181): a stopped channel keeps its value. -/
def timerTicked (c : Cfg) (t : TimerChannel) : TimerChannel :=
  if t.enabled then { t with current := timerNext c t } else t

/-- The clock advance (R180), then the TimerBank advance (R181). -/
def timersAdvance (s : State) : State :=
  (s.withClock (clockNext s.cfg s.clock)).withTmr (s.tmr.map (timerTicked s.cfg))

/-- TMR_TICK (R180, R181), as a ticker step of its own. -/
def execTmrTick (s : State) : Res := tickerStep timersAdvance s

/-- HPT_CMP_W (R190): the value is stored quantized (R97). -/
def execHptCmpW (n : Nat) (v : Word) (s : State) : Res :=
  wrote (modHpt n (fun ch => { ch with ocv := quantize s.cfg v }) s)

/-- HPT_CMP_R (R190). -/
def execHptCmpR (n : Nat) (s : State) : Res := answer (hptAt s n).ocv s

/-- HPT_CTRL_W (R191). -/
def execHptCtrlW (n : Nat) (v : Word) (s : State) : Res :=
  wrote (modHpt n (fun ch => { ch with active := controlBit v }) s)

/-- HPT_CTRL_R (R191). -/
def execHptCtrlR (n : Nat) (s : State) : Res := answer (flagWord (hptAt s n).active) s

/-- HPT_STATUS_R (R194): reading does not clear. -/
def execHptStatusR (s : State) : Res := answer (hptStatus s.hpt) s

/-- HPT_STATUS_W (R195): write 1 to clear. -/
def execHptStatusW (v : Word) (s : State) : Res := wrote (s.withHpt (hptClear v s.hpt))

/-- `hpt_fired` (R193): some channel matches the clock now. -/
def hptFired (s : State) : Bool := s.hpt.any (hptMatches s.clock)

/-- The HPTimer compare (R193): every matching channel's latch is set. -/
def hptCompare (s : State) : State := s.withHpt (s.hpt.map (hptCompared s.cfg s.clock))

/-- HPT_TICK (R193), as a ticker step of its own: its `hpt_fired` is local to the tick and ends with it. -/
def execHptTick (s : State) : Res := tickerStep hptCompare s

end Sys2Proof.Machine
end

