-- ==== Sys2Proof/Machine/Ticker.lean ====
section
/-! DEFINITION. The BackgroundTicker, and the host's halt and release: spec/48_compositor_ticker.md rules R370 to
R375. -/

namespace Sys2Proof.Machine

/-- The coalesced HPTimer interrupt (R196). -/
def raiseHpt (fired : Bool) (s : State) : State := if fired then trigger s.cfg.hptIrq 0 s else s

/-- The TIMERS sub-step (R370, R371): clock, TimerBank, compare, walk, HPTimer trigger. -/
def timersPhase (s : State) : State :=
  let s1 := timersAdvance s
  setPhase .cf (raiseHpt (hptFired s1) (tickWalk (hptCompare s1)))

/-- The atomic step that comes next in a run of the ticker (R370). -/
def tickPhaseStep (s : State) : State :=
  match s.agents.tickPhase with
  | .timers => timersPhase s
  | .cf => cfPhase s
  | .cfIrq => cfIrqPhase s

/-- TICK (R370): the ticker's next atomic step. -/
def execTick (s : State) : Res := tickerStep tickPhaseStep s

/-- HOST_HALT (R374). -/
def execHostHalt (s : State) : Res := .next (s.withAgents { s.agents with cpuHalted := true })

/-- HOST_RELEASE (R375). -/
def execHostRelease (s : State) : Res := .next (s.withAgents { s.agents with cpuHalted := false })

end Sys2Proof.Machine
end

