-- ==== Sys2Proof/Machine/Dispatch.lean ====
section
/-! DEFINITION. One arm per operation: each is one direct call of its meaning. -/

namespace Sys2Proof.Machine

open Sys2Proof

def exec (i : Instr) (s : State) : Host.Outcome State Fault Refusal :=
  match i with
  | .accUnknownR a => Sys2Proof.Machine.execAccUnknownR a s
  | .accUnknownW a v => Sys2Proof.Machine.execAccUnknownW a v s
  | .accDefaultR a => Sys2Proof.Machine.execAccDefaultR a s
  | .accDefaultW a v => Sys2Proof.Machine.execAccDefaultW a v s
  | .accUnmodeledR a => Sys2Proof.Machine.execAccUnmodeledR a s
  | .accUnmodeledW a v => Sys2Proof.Machine.execAccUnmodeledW a v s
  | .modelConstR a => Sys2Proof.Machine.execModelConstR a s
  | .icTrigger id delay => Sys2Proof.Machine.execIcTrigger id delay s
  | .icAck => Sys2Proof.Machine.execIcAck s
  | .icEnableW v => Sys2Proof.Machine.execIcEnableW v s
  | .icDisableW k v => Sys2Proof.Machine.execIcDisableW k v s
  | .icTickWalk => Sys2Proof.Machine.execIcTickWalk s
  | .tmrCtrlW n v => Sys2Proof.Machine.execTmrCtrlW n v s
  | .tmrCtrlR n => Sys2Proof.Machine.execTmrCtrlR n s
  | .tmrReloadW n v => Sys2Proof.Machine.execTmrReloadW n v s
  | .tmrReloadR n => Sys2Proof.Machine.execTmrReloadR n s
  | .tmrValueR n => Sys2Proof.Machine.execTmrValueR n s
  | .clockR => Sys2Proof.Machine.execClockR s
  | .tmrTick => Sys2Proof.Machine.execTmrTick s
  | .hptCmpW n v => Sys2Proof.Machine.execHptCmpW n v s
  | .hptCmpR n => Sys2Proof.Machine.execHptCmpR n s
  | .hptCtrlW n v => Sys2Proof.Machine.execHptCtrlW n v s
  | .hptCtrlR n => Sys2Proof.Machine.execHptCtrlR n s
  | .hptStatusR => Sys2Proof.Machine.execHptStatusR s
  | .hptStatusW v => Sys2Proof.Machine.execHptStatusW v s
  | .hptTick => Sys2Proof.Machine.execHptTick s
  | .dmaSrcW c v => Sys2Proof.Machine.execDmaSrcW c v s
  | .dmaSrcR c => Sys2Proof.Machine.execDmaSrcR c s
  | .dmaDstW c v => Sys2Proof.Machine.execDmaDstW c v s
  | .dmaDstR c => Sys2Proof.Machine.execDmaDstR c s
  | .dmaCountW c v => Sys2Proof.Machine.execDmaCountW c v s
  | .dmaCountR c => Sys2Proof.Machine.execDmaCountR c s
  | .dmaStart c v => Sys2Proof.Machine.execDmaStart c v s
  | .edmRegW r ch v => Sys2Proof.Machine.execEdmRegW r ch v s
  | .edmRegR r ch => Sys2Proof.Machine.execEdmRegR r ch s
  | .edmStart ch v => Sys2Proof.Machine.execEdmStart ch v s
  | .chswRW second off v => Sys2Proof.Machine.execChswRW second off v s
  | .chswWW second off v => Sys2Proof.Machine.execChswWW second off v s
  | .chswRead a => Sys2Proof.Machine.execChswRead a s
  | .sdCmdloW v => Sys2Proof.Machine.execSdCmdloW v s
  | .sdCmdloR => Sys2Proof.Machine.execSdCmdloR s
  | .sdCmdhiW v => Sys2Proof.Machine.execSdCmdhiW v s
  | .sdCmdhiR => Sys2Proof.Machine.execSdCmdhiR s
  | .sdDmaregW r v => Sys2Proof.Machine.execSdDmaregW r v s
  | .sdDmaregR r => Sys2Proof.Machine.execSdDmaregR r s
  | .sdDmactrlW v => Sys2Proof.Machine.execSdDmactrlW v s
  | .sdDmactrlR => Sys2Proof.Machine.execSdDmactrlR s
  | .sdIssue v => Sys2Proof.Machine.execSdIssue v s
  | .sdRespR n => Sys2Proof.Machine.execSdRespR n s
  | .sdProgressR => Sys2Proof.Machine.execSdProgressR s
  | .sdIrqenW v => Sys2Proof.Machine.execSdIrqenW v s
  | .sdIrqenR => Sys2Proof.Machine.execSdIrqenR s
  | .sdStatusR => Sys2Proof.Machine.execSdStatusR s
  | .cfAtaR off => Sys2Proof.Machine.execCfAtaR off s
  | .cfAtaW off v => Sys2Proof.Machine.execCfAtaW off v s
  | .cfStatusR => Sys2Proof.Machine.execCfStatusR s
  | .cfIdeDone => Sys2Proof.Machine.execCfIdeDone s
  | .cfIntstatR => Sys2Proof.Machine.execCfIntstatR s
  | .cfDmaregW r v => Sys2Proof.Machine.execCfDmaregW r v s
  | .cfDmaregR r => Sys2Proof.Machine.execCfDmaregR r s
  | .cfDmaenW v => Sys2Proof.Machine.execCfDmaenW v s
  | .cfDmaenR => Sys2Proof.Machine.execCfDmaenR s
  | .cfDmaReq v => Sys2Proof.Machine.execCfDmaReq v s
  | .cfDmaSlice => Sys2Proof.Machine.execCfDmaSlice s
  | .cfDmaIrq => Sys2Proof.Machine.execCfDmaIrq s
  | .flRead b off => Sys2Proof.Machine.execFlRead b off s
  | .flBusyRead b off => Sys2Proof.Machine.execFlBusyRead b off s
  | .flUnlock1 b off v => Sys2Proof.Machine.execFlUnlock1 b off v s
  | .flUnlock2 b off v => Sys2Proof.Machine.execFlUnlock2 b off v s
  | .flCmdProgram b off v => Sys2Proof.Machine.execFlCmdProgram b off v s
  | .flCmdErase b off v => Sys2Proof.Machine.execFlCmdErase b off v s
  | .flEraseUnlock1 b off v => Sys2Proof.Machine.execFlEraseUnlock1 b off v s
  | .flEraseUnlock2 b off v => Sys2Proof.Machine.execFlEraseUnlock2 b off v s
  | .flChipErase b off v => Sys2Proof.Machine.execFlChipErase b off v s
  | .flBlockErase b off v => Sys2Proof.Machine.execFlBlockErase b off v s
  | .flBypassEraseEntry b off v => Sys2Proof.Machine.execFlBypassEraseEntry b off v s
  | .flBypassProgramEntry b off v => Sys2Proof.Machine.execFlBypassProgramEntry b off v s
  | .flBypassChipErase b off v => Sys2Proof.Machine.execFlBypassChipErase b off v s
  | .flBypassBlockErase b off v => Sys2Proof.Machine.execFlBypassBlockErase b off v s
  | .flProgramData b off v => Sys2Proof.Machine.execFlProgramData b off v s
  | .flBadCycle b off v => Sys2Proof.Machine.execFlBadCycle b off v s
  | .flPassR b off => Sys2Proof.Machine.execFlPassR b off s
  | .flPassW b off v => Sys2Proof.Machine.execFlPassW b off v s
  | .pal4W n v => Sys2Proof.Machine.execPal4W n v s
  | .pal4R n => Sys2Proof.Machine.execPal4R n s
  | .pal8W n v => Sys2Proof.Machine.execPal8W n v s
  | .pal8R n => Sys2Proof.Machine.execPal8R n s
  | .planeAddrW p v => Sys2Proof.Machine.execPlaneAddrW p v s
  | .planeAddrR p => Sys2Proof.Machine.execPlaneAddrR p s
  | .dispCompose => Sys2Proof.Machine.execDispCompose s
  | .dispInvalidate => Sys2Proof.Machine.execDispInvalidate s
  | .tick => Sys2Proof.Machine.execTick s
  | .hostHalt => Sys2Proof.Machine.execHostHalt s
  | .hostRelease => Sys2Proof.Machine.execHostRelease s

end Sys2Proof.Machine
end

