-- ==== Sys2Proof/Machine/Schedule.lean ====
section
/-! DEFINITION. Which move of the interleaving comes next, and what decoding reads of the machine: spec/20_memory.md
rules R80 to R84. The interleaving is the state's `schedule`, so that a statement about every state is one about every
interleaving (notes/assumptions/9.md). -/

namespace Sys2Proof.Machine

/-- What decoding reads of the machine (R121, R329). -/
def State.view (s : State) : View := ⟨s.cfg, s.flash.map (·.state)⟩

/-- The agent whose step an operation is (R80, R90): an ACC transaction is the CPU's, TICK and its sub-steps the
ticker's, HOST the host's; TRIG and the IDE event come from a component. -/
def agentOf : Instr → Agent
  | .icTrigger _ _ => .component
  | .cfIdeDone => .component
  | .icTickWalk => .ticker
  | .tmrTick => .ticker
  | .hptTick => .ticker
  | .cfDmaSlice => .ticker
  | .cfDmaIrq => .ticker
  | .tick => .ticker
  | .dispCompose => .host
  | .dispInvalidate => .host
  | .hostHalt => .host
  | .hostRelease => .host
  | _ => .cpu

/-- The move taken when nothing is scheduled: a trigger step the CPU agent still owes, else the ticker's next step. -/
def defaultEvent (s : State) : Event :=
  if s.agents.cpuQueue.isEmpty then .request (encodeRequest (.tick .run)) else .cpuTrigger

/-- The next move. -/
def nextEvent (s : State) : Event := s.schedule.headD (defaultEvent s)

/-- The machine with the next move taken off the schedule. -/
def popEvent (s : State) : State := s.withSchedule s.schedule.tail

/-- One trigger step of the CPU agent (R83): the first owed call is performed; a fatal one changes nothing but
`fatal` (R403). -/
def triggerStep (s : State) : Res :=
  match s.agents.cpuQueue with
  | [] => .fault (.noStep .cpu)
  | q :: rest => .next (orFatal s (trigger q.id q.delay (s.withAgents { s.agents with cpuQueue := rest })))

/-- The bytes a scheduled request presents where the machine takes its next transaction. -/
def placeRequest (bytes : List Byte) (s : State) : State := s.withSchedule (.request bytes :: s.schedule)

end Sys2Proof.Machine
end

