-- ==== Sys2Proof/Machine/Step.lean ====
section
/-! DEFINITION. One step of the machine: the next move of the interleaving (spec/20_memory.md rules R81 to R84,
spec/60_exceptions.md rule R403). -/

namespace Sys2Proof.Machine

/-- An operation run as the next move: a new CPU access waits for the trigger steps the last one owes (R83), which run
first, and is not issued while the CPU is halted (R84). -/
def runInstr (i : Instr) (s : State) : Res :=
  match agentOf i with
  | .cpu =>
    if s.agents.cpuQueue.isEmpty then
      (if s.agents.cpuHalted then .fault (.noStep .cpu) else exec i (popEvent s))
    else triggerStep s
  | _ => exec i (popEvent s)

/-- One step: nothing after a fatal stop (R403), else the next move. -/
def step (s : State) : Host.Outcome State Fault Refusal :=
  match s.fatal with
  | some r => .fault (.fatalStop r)
  | none =>
    match nextEvent s with
    | .cpuTrigger => triggerStep (popEvent s)
    | .guestStore addr bytes => .next ((popEvent s).withMem (guestWrite s.mem addr.toNat bytes))
    | .cpuPc pc => .next ((popEvent s).withEnv { s.env with pc := pc })
    | .request bytes =>
      match decode s.view bytes with
      | .error e => .refused (.badRequest e)
      | .ok i => runInstr i s

/-- The machine with a request's bits placed where `step` takes its next transaction: at the head of the schedule. -/
def State.withFetchWord (s : State) (nbits w : Nat) : State := placeRequest (wordBytes nbits w) s

end Sys2Proof.Machine
end

