-- ==== Sys2Proof/Safety.lean ====
section
/-! DEFINITION. What a safe run and a sound state are, in the terms the statements use. Every invariant here rules out
states that no run from `State.init` of a well-formed configuration reaches. -/

namespace Sys2Proof.Machine

open Sys2Proof

/-! ## Runs -/

/-- The run has not ended in the fatal stop (R403). -/
def State.safe (s : State) : Prop := s.fatal = none

/-- `d` tick walks in a row (R149). -/
def tickWalks : Nat → State → State
  | 0, s => s
  | d + 1, s => tickWalks d (tickWalk s)

/-- `n` CF slices in a row (R287). -/
def cfSlices : Nat → State → State
  | 0, s => s
  | n + 1, s => cfSlices n (cfSlice s).2

/-- Run a list of operations one after another, from `s`; `none` when one of them does not complete. -/
def execAll : List Instr → State → Option State
  | [], s => some s
  | i :: rest, s =>
    match exec i s with
    | .next t => execAll rest t
    | .fault _ => none
    | .refused _ => none

/-- The effect step of a register access (R62, R83): the operation it selects, run. -/
def access (a : Word) (write : Bool) (v : Word) (s : State) : Res := exec (decodeAccess s.view a write v) s

/-- The effect steps of register writes, one after another; `none` when one of them does not complete. -/
def writes : List (Word × Word) → State → Option State
  | [], s => some s
  | (a, v) :: rest, s =>
    match access a true v s with
    | .next t => writes rest t
    | .fault _ => none
    | .refused _ => none

/-- How often the block has called `raise_irq()` (R144). -/
def State.raises (s : State) : Nat := s.calls.countP (fun c => c == .raiseIrq)

/-- How often the block has called `lower_irq()` (R145, R147). -/
def State.lowers (s : State) : Nat := s.calls.countP (fun c => c == .lowerIrq)

/-! ## The register catalogue's directions (R92) -/

/-- The "Access" column of R92: the register may be read. -/
def readable : RegName → Bool
  | .icEnable | .icDisable _ | .dmaCtrl _ | .edmCtrl _ | .sdCmdFlags | .cfDmaCtrl => false
  | _ => true

/-- The "Access" column of R92: the register may be written. -/
def writable : RegName → Bool
  | .icCurrent | .clock | .tmrValue _ | .sdResp _ | .sdStatus | .sdDmaProgress | .cfIntStatus => false
  | _ => true

/-! ## Invariants -/

/-- Guest memory and every bank image are in their canonical form. -/
def State.memOk (s : State) : Prop :=
  s.mem.wf = true ∧ ∀ b, Memory.wf (some Config.erasedByte) (s.cfg.bankSize b) (bankAt s b).image = true

/-- The interrupt controller is sound (R23 to R25, R153): one record per line, the line in service exists, the CPU line
is high only while a line is in service. -/
def State.icOk (s : State) : Prop :=
  s.ic.line.length = s.cfg.maxIrq ∧
    (∀ x, s.ic.active = some x → x.id < s.cfg.maxIrq ∧ x.mask.length = s.cfg.maxIrq) ∧
    (s.ic.irqLine = true → s.ic.active.isSome = true)

/-- A value the clock can take (R180). -/
def onClock (c : Cfg) (v : Word) : Prop := v.toNat < c.clockMod ∧ v.toNat % c.clockStep = 0

/-- The clock and every compare value are values the clock can take (R27, R180, R190). -/
def State.clockOk (s : State) : Prop :=
  s.cfg.timersOk = true ∧ onClock s.cfg s.clock ∧ ∀ ch ∈ s.hpt, onClock s.cfg ch.ocv

/-- A bank is sound (R36, R326, R328, R330): not in a state no transition enters, counting busy reads only while busy,
and in READ while the state machine is disabled. -/
def FlashBank.ok (c : Cfg) (x : FlashBank) : Prop :=
  x.state ≠ .unlockBypass ∧ x.state ≠ .unlockBypassReset ∧
    (x.state = .blockEraseBusy → x.busyReads.toNat ≤ c.flashBusyReads) ∧
    (x.state ≠ .blockEraseBusy → x.busyReads = 0) ∧ (c.flashSmEnabled = false → x.state = .read)

/-- Every bank is sound. -/
def State.flashOk (s : State) : Prop :=
  s.cfg.flashOk = true ∧ ∀ x ∈ s.flash, FlashBank.ok s.cfg x

/-- Rows of a plane record: `rows` rows of `pitch` bytes (R39). -/
def planeShape (rows pitch : Nat) (p : List (List Byte)) : Prop := p.length = rows ∧ ∀ r ∈ p, r.length = pitch

/-- Every array of the state has the length the configuration gives it (R22 to R39). -/
def State.shapeOk (s : State) : Prop :=
  s.ic.line.length = s.cfg.maxIrq ∧ s.tmr.length = s.cfg.nTimers ∧ s.hpt.length = Config.nHpt ∧
    s.dma.length = s.cfg.nDma ∧ s.edmac.length = s.cfg.nEdmac ∧ s.conn.readConn.length = Config.nConn ∧
    s.conn.writeConn.length = s.cfg.nEdmac ∧ s.flash.length = s.cfg.nBanks ∧ s.disp.pal4.length = 16 ∧
    s.disp.pal8.length = 256 ∧
    (∀ p, s.disp.seenBmp = some p → planeShape s.cfg.bmpH s.cfg.bmpPitch p) ∧
    (∀ p, s.disp.seenYuv = some p → planeShape s.cfg.yuvH s.cfg.yuvPitch p) ∧
    (s.disp.seenBmp ≠ none → s.surface.length = s.cfg.bmpH)

/-- The bits SD_STATUS can have set (R272). -/
def sdStatusMask (c : Cfg) : Word := bitMask c.sdStDone ||| bitMask c.sdStData ||| bitMask c.sdStErr

/-- An outstanding command is a data command with its own direction and block form (R33, R265), and the status has no
other bit than the three (R272). -/
def State.sdOk (s : State) : Prop :=
  (∀ o, s.sd.outstanding = some o → sdIsData o.cmd = true ∧ o.dir = sdDir o.cmd ∧ o.multi = sdIsMulti o.cmd) ∧
    s.sd.status &&& ~~~ sdStatusMask s.cfg = 0

/-- A pending CF transfer has moved no more words than it has (R34, R287). -/
def State.cfOk (s : State) : Prop := ∀ p, s.cf.pendingDma = some p → p.done ≤ p.words

/-- Every trigger owed names a line that exists (R410). -/
def State.queueOk (s : State) : Prop :=
  s.cfg.idsOk = true ∧ ∀ q ∈ s.agents.cpuQueue, q.id.toNat < s.cfg.maxIrq

/-- Every invariant together. -/
def State.sound (s : State) : Prop :=
  s.memOk ∧ s.icOk ∧ s.clockOk ∧ s.flashOk ∧ s.shapeOk ∧ s.sdOk ∧ s.cfOk ∧ s.queueOk

end Sys2Proof.Machine
end

