-- ==== Sys2Proof/Certificates/Slice0/Obligations.lean ====
section
/-! DEFINITION. The statements for the provers. Each docstring names the rules of spec/ it formalises, or says that it
is the model's own. A statement that gives the next state as a record update of the old one is its own frame:
everything the update does not name is unchanged, guest memory and every bank included. -/

open Sys2Proof Sys2Proof.Machine

/-! ## Encoding and decoding -/

/-- A request's bytes decode to the transaction they were made from; a read carries no value (R62, R90). The byte
layout is the model's own (notes/assumptions/8.md). -/
def Obligations.RequestRoundTrip : Prop :=
  ∀ t : Transaction, decodeRequest (encodeRequest t) =
    .ok (match t with
      | .acc a false _ => .acc a false 0
      | t => t)

/-- Decode and encode agree for every register operation (R91, R92): with every operand, the request that selects a
well-formed register operation decodes to that operation, in every configuration in which its register has an address
that its own handler is selected for. The byte layout of a request is the model's own (notes/assumptions/8.md). -/
def Obligations.RegisterOperationsRoundTrip : Prop :=
  ∀ (w : View) (i : Instr) (r : RegName) (write : Bool) (v a : Word) (h : Handler),
    w.cfg.wf = true → i.wf w.cfg = true → i.reg = some (r, write, v) → addrOf w.cfg r = some a →
    selectHandler w.cfg a = some h → r.inKind h.kind = true →
    (h.kind = .cf → inRange w.cfg.cfAtaBase w.cfg.cfAtaLast a = false) →
    ∃ bytes, encode w.cfg i = some bytes ∧ decode w bytes = .ok i

/-- Decode and encode agree for every flash operation (R95, R310, R311): the request that makes a cycle or a read of a
bank decodes to the row that R329 (for a write) or R312, R328 and R330 (for a read) give for the bank's state. The
byte layout of a request is the model's own (notes/assumptions/8.md). -/
def Obligations.FlashOperationsRoundTrip : Prop :=
  ∀ (w : View) (i : Instr) (b off : Nat) (write : Bool) (v : Word) (h : Handler),
    w.cfg.wf = true → i.wf w.cfg = true → i.flashAccess = some (b, off, write, v) →
    selectHandler w.cfg (w.cfg.bankBase b + BitVec.ofNat 32 off) = some h → h.kind = .flash b →
    (if write then i = (selectFlashWrite w.cfg (w.flashState b) off v).op b off v
      else i = (selectFlashRead w.cfg (w.flashState b)).op b off) →
    ∃ bytes, encode w.cfg i = some bytes ∧ decode w bytes = .ok i

/-- Decode and encode agree for the operations selected by a window: the channel-switch sub-ranges (R237, R238) and the
CF ATA window (R280, R282). That a sub-range is tried after those listed before it, and the byte layout of a request,
are the model's own (notes/assumptions/26.md, notes/assumptions/8.md). -/
def Obligations.WindowOperationsRoundTrip : Prop :=
  ∀ (w : View) (h : Handler) (off : Nat) (v : Word), off < 2 ^ 32 →
    (∀ second : Bool, h.kind = .chsw → w.cfg.inChsw (if second then .r1 else .r0) off = true →
      selectHandler w.cfg ((w.cfg.chsw (if second then .r1 else .r0)).base + BitVec.ofNat 32 off) = some h →
      (second = true → chswOffset w.cfg .r0 (w.cfg.chswR1.base + BitVec.ofNat 32 off) = none) →
      ∃ bytes, encode w.cfg (.chswRW second off v) = some bytes ∧ decode w bytes = .ok (.chswRW second off v)) ∧
    (∀ second : Bool, h.kind = .chsw → w.cfg.inChsw (if second then .w1 else .w0) off = true →
      selectHandler w.cfg ((w.cfg.chsw (if second then .w1 else .w0)).base + BitVec.ofNat 32 off) = some h →
      chswOffset w.cfg .r0 ((w.cfg.chsw (if second then .w1 else .w0)).base + BitVec.ofNat 32 off) = none →
      chswOffset w.cfg .r1 ((w.cfg.chsw (if second then .w1 else .w0)).base + BitVec.ofNat 32 off) = none →
      (second = true → chswOffset w.cfg .w0 (w.cfg.chswW1.base + BitVec.ofNat 32 off) = none) →
      ∃ bytes, encode w.cfg (.chswWW second off v) = some bytes ∧ decode w bytes = .ok (.chswWW second off v)) ∧
    (h.kind = .cf → w.cfg.inAtaWin off = true →
      selectHandler w.cfg (w.cfg.cfAtaBase + BitVec.ofNat 32 off) = some h →
      (∃ bytes, encode w.cfg (.cfAtaW off v) = some bytes ∧ decode w bytes = .ok (.cfAtaW off v)) ∧
      (off ≠ w.cfg.cfStatusOff →
        ∃ bytes, encode w.cfg (.cfAtaR off) = some bytes ∧ decode w bytes = .ok (.cfAtaR off)) ∧
      (off = w.cfg.cfStatusOff →
        ∃ bytes, encode w.cfg .cfStatusR = some bytes ∧ decode w bytes = .ok .cfStatusR))

/-- Decode and encode agree for the remaining operations: TRIG, TICK and its sub-steps, HOST, the IDE event (R90), and
the dispatcher's own operations with the address classes that select them (R121 to R126, R239). The byte layout and
the sub-steps of TICK as requests are the model's own (notes/assumptions/8.md). -/
def Obligations.OtherOperationsRoundTrip : Prop :=
  ∀ (w : View) (a v : Word),
    (∀ i : Instr, agentOf i ≠ .cpu → ∃ bytes, encode w.cfg i = some bytes ∧ decode w bytes = .ok i) ∧
    (selectHandler w.cfg a = none → known w.cfg a = false →
      (encode w.cfg (.accUnknownR a)).map (decode w) = some (.ok (.accUnknownR a)) ∧
      (encode w.cfg (.accUnknownW a v)).map (decode w) = some (.ok (.accUnknownW a v))) ∧
    (selectHandler w.cfg a = none → known w.cfg a = true →
      (encode w.cfg (.accDefaultR a)).map (decode w) = some (.ok (.accDefaultR a)) ∧
      (encode w.cfg (.accDefaultW a v)).map (decode w) = some (.ok (.accDefaultW a v))) ∧
    (∀ h, selectHandler w.cfg a = some h →
      (h.kind = .chsw → (encode w.cfg (.chswRead a)).map (decode w) = some (.ok (.chswRead a))) ∧
      (h.kind = .modelConst → modelConstAt w.cfg a ≠ none →
        (encode w.cfg (.modelConstR a)).map (decode w) = some (.ok (.modelConstR a))) ∧
      (h.kind = .modelConst → modelConstAt w.cfg a = none →
        (encode w.cfg (.accUnmodeledR a)).map (decode w) = some (.ok (.accUnmodeledR a))) ∧
      (h.kind = .modelConst →
        (encode w.cfg (.accUnmodeledW a v)).map (decode w) = some (.ok (.accUnmodeledW a v))))

/-- Accesses of R401's class 1 that decode to an unmodeled access. In a handler of named registers, one that selects no
register, reads a register R92 gives no read, or writes one it gives no write (R92, R124); a CF_DMA_CTRL write of neither
command (R100); a channel-switch write outside every sub-range (R237). The other rows of class 1 are elsewhere: the MODELCONST
handler in `Obligations.OtherOperationsRoundTrip`; a channel-switch read, a channel-switch write that is no slot's, and
IC_ENABLE of an id outside the lines, which decode to operations of their own, in `Obligations.DispatcherAccesses`,
`Obligations.ChannelSwitchWrites` and `Obligations.EnableAndDisable`. The last clause, a flash handler's range outside its
bank, needs a configuration that is refused (R310, notes/assumptions/29.md); its outcome there is the model's own
(notes/assumptions/26.md). -/
def Obligations.WrongAccessesAreUnmodeled : Prop :=
  ∀ (w : View) (a v : Word) (write : Bool) (h : Handler), selectHandler w.cfg a = some h →
    (h.kind ∈ [Kind.ic, .timer, .hptimer, .dma, .edmac, .sdio, .cf, .display] →
      (h.kind = .cf → inRange w.cfg.cfAtaBase w.cfg.cfAtaLast a = false) →
      (∀ r, regAt w.cfg h.kind a = some r → (if write then writable r else readable r) = false) →
      decodeAccess w a write v = if write then .accUnmodeledW a v else .accUnmodeledR a) ∧
    (h.kind = .cf → inRange w.cfg.cfAtaBase w.cfg.cfAtaLast a = false → regAt w.cfg .cf a = some .cfDmaCtrl →
      v ≠ 0x39 → v ≠ w.cfg.cfDmaWriteCmd → decodeAccess w a true v = .accUnmodeledW a v) ∧
    (h.kind = .chsw → (∀ sub, 4 * (w.cfg.chsw sub).map.length ≤ (a - (w.cfg.chsw sub).base).toNat) →
      decodeAccess w a true v = .accUnmodeledW a v) ∧
    (∀ b, h.kind = .flash b → w.cfg.bankSize b ≤ (a - w.cfg.bankBase b).toNat →
      decodeAccess w a write v = if write then .accUnmodeledW a v else .accUnmodeledR a)

/-- A few requests under the spec's test configuration `TC` decode to the operations they stand for: a write of
IC_ENABLE, a read of CLOCK, a write of DMA_CTRL[0], a write of PAL8[255], the first unlock cycle of bank 0, a read of
an unknown address, a TRIG. The byte layout of a request is the model's own (notes/assumptions/8.md). -/
def Obligations.WordsDecode : Prop :=
  decode (View.reset Config.tc) [1, 0x10, 0x10, 0x20, 0xC0, 0x0A, 0, 0, 0] = .ok (.icEnableW 0x0A) ∧
  decode (View.reset Config.tc) [0, 0x14, 0x20, 0x24, 0xC0, 0, 0, 0, 0] = .ok .clockR ∧
  decode (View.reset Config.tc) [1, 0x08, 0x00, 0xA0, 0xC0, 1, 0, 0, 0] = .ok (.dmaStart 0 1) ∧
  decode (View.reset Config.tc) [1, 0xFC, 0x4B, 0xF1, 0xC0, 3, 2, 1, 0] = .ok (.pal8W 255 0x00010203) ∧
  decode (View.reset Config.tc) [1, 0xAA, 0x0A, 0x00, 0xF8, 0xAA, 0, 0, 0] = .ok (.flUnlock1 0 0xAAA 0xAA) ∧
  decode (View.reset Config.tc) [0, 0, 0, 0, 0xD0, 0, 0, 0, 0] = .ok (.accUnknownR 0xD0000000) ∧
  decode (View.reset Config.tc) [2, 5, 0, 0, 0, 3, 0, 0, 0] = .ok (.icTrigger 5 3)

/-! ## Steps -/

/-- A step runs the decoded instruction: where the next move is a request that decodes to `i`, and `i`'s agent can
move, `step` is `exec i` on the machine with the request taken off the schedule (R81, R83, R84). That the interleaving
is a list held in the state is the model's own (notes/assumptions/9.md). -/
def Obligations.StepRunsDecoded : Prop :=
  ∀ (s : State) (bytes : List Byte) (rest : List Event) (i : Instr),
    s.fatal = none → s.schedule = .request bytes :: rest → decode s.view bytes = .ok i →
    (agentOf i = .cpu → s.agents.cpuQueue = [] ∧ s.agents.cpuHalted = false) →
    step s = exec i { s with schedule := rest }

/-- The trigger steps an access owes run before the next access (R83): with a call owed, the next move of the CPU
agent is that call, whether the schedule says so, is empty, or holds a new access, which then stays scheduled. The
last two are the model's own (notes/assumptions/7.md, notes/assumptions/9.md). -/
def Obligations.OwedTriggersRunFirst : Prop :=
  ∀ (s : State) (q : TriggerCall) (rest : List TriggerCall),
    s.fatal = none → s.agents.cpuQueue = q :: rest → q.id.toNat < s.cfg.maxIrq →
    (∀ events, s.schedule = .cpuTrigger :: events →
      step s = .next (trigger q.id q.delay
        { s with schedule := events, agents := { s.agents with cpuQueue := rest } })) ∧
    (s.schedule = [] → step s = .next (trigger q.id q.delay { s with agents := { s.agents with cpuQueue := rest } })) ∧
    (∀ bytes events i, s.schedule = .request bytes :: events → decode s.view bytes = .ok i → agentOf i = .cpu →
      step s = .next (trigger q.id q.delay { s with agents := { s.agents with cpuQueue := rest } }))

/-- Who has no step (R403, R84, R374): after a fatal stop no agent has one; while the CPU is halted the ticker has
none and no new access is issued. Each such move stops, by name. That such a move is a fault of `step` is the model's
own (notes/assumptions/7.md). -/
def Obligations.AgentsWithoutAStep : Prop :=
  ∀ s : State,
    (∀ r, s.fatal = some r → step s = .fault (.fatalStop r)) ∧
    (∀ bytes rest i, s.fatal = none → s.agents.cpuHalted = true → s.agents.cpuQueue = [] →
      s.schedule = .request bytes :: rest → decode s.view bytes = .ok i →
      (agentOf i = .cpu → step s = .fault (.noStep .cpu)) ∧ (agentOf i = .ticker → step s = .fault (.noStep .ticker)))

/-! ## Invariants and whole-machine rules -/

/-- Every step keeps guest memory and every bank image in canonical form. The canonical form is the model's own
representation (notes/assumptions/3.md). -/
def Obligations.MemoryStaysCanonical : Prop := ∀ s t : State, s.memOk → step s = .next t → t.memOk

/-- Every step keeps the interrupt controller sound: one record per line, the line in service exists, the CPU line is
high only while a line is in service (R23 to R25, R153). -/
def Obligations.InterruptsStaySound : Prop := ∀ s t : State, s.icOk → step s = .next t → t.icOk

/-- Every step keeps the clock and every HPTimer compare value at a value the clock takes (R27, R180, R190). -/
def Obligations.ClockStaysOnItsValues : Prop := ∀ s t : State, s.clockOk → step s = .next t → t.clockOk

/-- Every step keeps every bank sound (R36, R326, R328, R330): no bank enters UNLOCK_BYPASS or UNLOCK_BYPASS_RESET, busy
reads are counted only in BLOCK_ERASE_BUSY and never beyond FLASH_BUSY_READS, and a bank stays in READ while the state
machine is disabled. -/
def Obligations.FlashStaysSound : Prop := ∀ s t : State, s.flashOk → step s = .next t → t.flashOk

/-- Every step keeps the configuration (R121, "immutable after init"; notes/assumptions/1.md), every array of the state
at the length the configuration gives it (R22 to R39), and where guest memory is (notes/assumptions/3.md). -/
def Obligations.ShapesStay : Prop :=
  ∀ s t : State, step s = .next t →
    t.cfg = s.cfg ∧ (s.shapeOk → t.shapeOk) ∧ t.mem.holes = s.mem.holes

/-- Every step keeps the storage controllers and the owed triggers sound: an outstanding SD command is a data command with
its own direction and form, SD_STATUS has no bit but its three (R265, R272), a CF transfer never moves more words than it
has (R287), and under a configuration whose interrupt ids exist every owed trigger names a line that exists (R410, R433). -/
def Obligations.ControllersStaySound : Prop :=
  ∀ s t : State, step s = .next t → (s.sdOk → t.sdOk) ∧ (s.cfOk → t.cfOk) ∧ (s.queueOk → t.queueOk)

/-- The machine right after reset is sound. Its configuration, the spec's test configuration `TC`, is the model's
choice (notes/assumptions/2.md). -/
def Obligations.ResetIsSound : Prop := State.reset.sound ∧ State.reset.safe

/-- Machine init (R45, R431, R432): a configuration is accepted iff it meets the conditions of R433, with those of R91,
R121 and R353 that it names, written out here; the machine made is sound, and its elements have the initial values the spec
gives. The model's own: that a bank with no FLASH handler, two, or one of another range, and a FLASH handler of no bank, are
refused, deduced from R310, which R433 does not name (notes/assumptions/29.md); the listing of `AddrMap` by rising address
and as a total map of R92's registers, the windows' collisions and their end at 2^32 (notes/assumptions/29.md); the canonical
listing of a bank's image, by rising offset and without its erased bytes (notes/assumptions/3.md); the packing
(notes/assumptions/17.md); a clock that fits a u32 (notes/assumptions/19.md). A ratio of 0 is accepted
(notes/assumptions/28.md). -/
def Obligations.InitIsSound : Prop :=
  ∀ (c : Cfg) (ws : List (Nat × Nat)) (share : Nat × Nat → Nat × Nat → Prop),
    ws = [(c.cfAtaBase.toNat, c.cfAtaLast.toNat + 1 - c.cfAtaBase.toNat)] ++
      [c.chswR0, c.chswR1, c.chswW0, c.chswW1].map (fun x => (x.base.toNat, 4 * x.map.length)) ++
      c.modelConst.map (fun e => (e.1.toNat, 1)) ++ c.banks.map (fun x => (x.base.toNat, x.size)) →
    (∀ x y, share x y ↔ ∃ a, x.1 ≤ a ∧ a < x.1 + x.2 ∧ y.1 ≤ a ∧ a < y.1 + y.2) →
    ((State.initOf c).isSome = true ↔
      c.handlers.Pairwise (fun h g => ¬ (h.lo ≤ g.lo ∧ g.hi ≤ h.hi)) ∧
      c.addrMap.Pairwise (fun e f => e.2 < f.2) ∧ (c.addrMap.map (·.1)).Nodup ∧
      (∀ r, r ∈ c.addrMap.map (·.1) ↔ r.present c = true) ∧
      ws.Pairwise (fun x y => ¬ share x y) ∧ (∀ x ∈ ws, x.1 + x.2 ≤ 2 ^ 32) ∧
      (∀ e ∈ c.addrMap, ∀ x ∈ ws, ¬ share x (e.2.toNat, 1)) ∧
      (∀ id, id ∈ [c.osTimerIrq, c.hptIrq, c.sdIrq, c.cfIrq, c.cfDmaIrq] ∨ id ∈ c.dmaIrq ∨
        (∃ x ∈ c.edmac, x.irq = some id) → id.toNat < c.maxIrq) ∧
      c.osTimerCh < c.nTimers ∧ 24 ≤ c.nEdmac ∧
      1 ≤ c.clockStep ∧ 0 < c.clockMod ∧ c.clockMod % c.clockStep = 0 ∧ c.clockMod ≤ 2 ^ 32 ∧
      1 ≤ c.dmaK ∧ 1 ≤ c.dmaBlock ∧ 1 ≤ c.cfSliceWords ∧ c.flashBusyReads ≤ 16 ∧
      (∀ x ∈ c.banks, x.size % 2 = 0 ∧ cellsCanonical (some 0xFF) x.size x.image = true) ∧
      2 ≤ c.flashBlockSize ∧ c.flashBlockSize % 2 = 0 ∧
      (∀ b x, c.banks[b]? = some x → ∃ h, c.handlers.filter (fun h => h.kind == .flash b) = [h] ∧
        h.lo.toNat = x.base.toNat ∧ h.hi.toNat + 1 = x.base.toNat + x.size) ∧
      (∀ h ∈ c.handlers, ∀ b, h.kind = .flash b → b < c.banks.length) ∧
      [c.sdStDone, c.sdStData, c.sdStErr].Nodup ∧ (∀ i ∈ [c.sdStDone, c.sdStData, c.sdStErr], i ≤ 31) ∧
      c.cfDmaWriteCmd ≠ 0x39 ∧ c.cfAtaBase.toNat + c.cfStatusOff ≤ c.cfAtaLast.toNat ∧
      c.bmpW ≤ c.bmpPitch ∧ 2 * c.yuvW ≤ c.yuvPitch ∧ c.yuvW % 2 = 0 ∧
      (c.yuvW ∣ c.bmpW ∨ c.bmpW ∣ c.yuvW) ∧ (c.yuvH ∣ c.bmpH ∨ c.bmpH ∣ c.yuvH) ∧
      [c.yuvLayout.u, c.yuvLayout.y0, c.yuvLayout.v, c.yuvLayout.y1].Nodup ∧
      ∀ i ∈ [c.yuvLayout.u, c.yuvLayout.y0, c.yuvLayout.v, c.yuvLayout.y1], i < 4) ∧
    ∀ s, State.initOf c = some s →
      s.cfg = c ∧ s.sound ∧ s.fatal = none ∧ s.clock = 0 ∧ s.ic.active = none ∧ s.ic.irqLine = false ∧
      (∀ id, lineAt s id = ⟨false, 0⟩) ∧ (∀ n, tmrAt s n = ⟨false, 0, 0⟩) ∧ (∀ n, hptAt s n = ⟨false, 0, false⟩) ∧
      (∀ ch, dmaAt s ch = ⟨0, 0, 0⟩) ∧ (∀ ch, edmacAt s ch = ⟨EdmacRegs.reset, none, 0⟩) ∧
      (∀ i < Config.nConn, s.conn.readConn[i]? = some none) ∧ (∀ ch < c.nEdmac, s.conn.writeConn[ch]? = some none) ∧
      s.sd = SdState.reset ∧ s.cf = CfState.reset ∧
      (∀ b, (bankAt s b).state = .read ∧ (bankAt s b).busyReads = 0) ∧
      (∀ b x, c.banks[b]? = some x → (bankAt s b).image = x.image) ∧
      s.disp.bmpAddr = 0 ∧ s.disp.yuvAddr = 0 ∧ s.disp.seenBmp = none ∧ s.disp.seenYuv = none ∧
      s.disp.invalidateAll = true ∧ (∀ i < 16, s.disp.pal4[i]? = some ⟨0, 0, 0, 0⟩) ∧
      (∀ i < 256, s.disp.pal8[i]? = some ⟨0, 0, 0, 0⟩) ∧
      s.lim = ⟨none, 0⟩ ∧ s.agents = ⟨false, [], .timers⟩

/-- A step touches state of at most one of the two lock groups (R82): the CF group, or the interrupt and timer group. -/
def Obligations.OneLockGroupPerStep : Prop :=
  ∀ s t : State, step s = .next t →
    t.cf = s.cf ∨ (t.ic = s.ic ∧ t.clock = s.clock ∧ t.tmr = s.tmr ∧ t.hpt = s.hpt)

/-- At most one line is in service, only the acknowledge ends its service, and `raise_irq()` is called exactly once per
delivery (R24, R143, R144, R153): a step from a state with a line in service delivers nothing and keeps that line in
service, unless it runs the read of IC_CURRENT (R145); a step from one with none either delivers nothing, or delivers one
line, which it disables, with one `raise_irq()`. -/
def Obligations.OneDeliveryUntilAcknowledge : Prop :=
  ∀ s t : State, step s = .next t →
    (∀ x, s.ic.active = some x → t.raises = s.raises ∧
      (t.ic.active = some x ∨
        (t.ic.active = none ∧ s.agents.cpuQueue = [] ∧
          ∃ bytes, nextEvent s = .request bytes ∧ decode s.view bytes = .ok .icAck))) ∧
    (s.ic.active = none →
      (t.ic.active = none ∧ t.raises = s.raises) ∨
      (∃ x, t.ic.active = some x ∧ t.raises = s.raises + 1 ∧ t.ic.irqLine = true ∧ (lineAt t x.id).enabled = false))

/-- What ends a run (R403, R401 class 3): under a well-formed configuration, a step that finds an invariant violation
is the start of an EDMAC channel with no table entry, a CF DMA request with CF DMA not enabled, or a TRIG of an id
outside the lines; and it changes nothing but `fatal`. That the move made is off the schedule, and that owed triggers and
the returned value stay as they were, are the model's own (notes/assumptions/9.md, notes/assumptions/11.md). -/
def Obligations.FatalCauses : Prop :=
  ∀ (s t : State) (r : FatalReason), s.cfg.wf = true → s.queueOk → step s = .next t → t.fatal = some r →
    t = { s with fatal := some r, schedule := s.schedule.tail } ∧
    ∃ bytes i, nextEvent s = .request bytes ∧ decode s.view bytes = .ok i ∧
      ((∃ ch v, i = .edmStart ch v ∧ edmacIrq s.cfg ch = none ∧ r = .edmacNoIrq ch) ∨
       (∃ v, i = .cfDmaReq v ∧ s.cf.dmaEnabled = false ∧ r = .cfDmaNotEnabled) ∨
       (∃ id d, i = .icTrigger id d ∧ s.cfg.maxIrq ≤ id.toNat ∧ r = .irqIdOutOfRange id))

/-- Time stands still while the CPU is halted (R374, R375): whatever move is made, the clock, the timers, the HPTimers
and the tick phase stay, no CF word moves, and no interrupt countdown advances: a line's countdown is the same, unless the
move is a trigger of that line, one that an access in progress still owes or a component's TRIG, which sets it. -/
def Obligations.HaltStopsTime : Prop :=
  ∀ s t : State, s.agents.cpuHalted = true → step s = .next t →
    t.clock = s.clock ∧ t.tmr = s.tmr ∧ t.hpt = s.hpt ∧ t.agents.tickPhase = s.agents.tickPhase ∧
    t.cf.pendingDma = s.cf.pendingDma ∧
    ∀ j, (lineAt t j).sched = (lineAt s j).sched ∨
      (∃ q rest, s.agents.cpuQueue = q :: rest ∧ t.agents.cpuQueue = rest ∧ q.id.toNat = j) ∨
      ∃ bytes id d, nextEvent s = .request bytes ∧ decode s.view bytes = .ok (.icTrigger id d) ∧ id.toNat = j

/-- Frame of memory: only a DMA start, an SD issue, an SD_DMA_CTRL write and the CF sub-step of the ticker store to guest
memory; an operation on a bank changes no other bank, and every other operation changes no bank (R61, R85, R310). -/
def Obligations.OnlyTransfersStore : Prop :=
  ∀ (i : Instr) (s t : State), exec i s = .next t →
    ((∀ ch v, i ≠ .dmaStart ch v) → (∀ v, i ≠ .sdIssue v) → (∀ v, i ≠ .sdDmactrlW v) → i ≠ .cfDmaSlice →
      ¬ (i = .tick ∧ s.agents.tickPhase = .cf) → ∀ x, guestByte t.mem x = guestByte s.mem x) ∧
    (∀ b off write v, i.flashAccess = some (b, off, write, v) →
      (∀ b', b' ≠ b → bankAt t b' = bankAt s b') ∧ ∀ x, guestByte t.mem x = guestByte s.mem x) ∧
    (i.flashAccess = none → t.flash = s.flash)

/-- Frame of memory for the operations that store (R85, R213, R266, R287): every byte outside the range the transfer
stores to is unchanged. The range is `[dst, dst + count)` for a DMA start,
`[dma_addr, dma_addr + 4 * (dma_count div 4))` for an SD data phase, and for a CF slice the bytes of all the words its
transfer has left; that a slice stores only to the words it moves is `Obligations.CfSlice`. -/
def Obligations.TransfersStoreInTheirRange : Prop :=
  ∀ (s t : State) (x : Nat), s.mem.wf = true →
    (∀ ch v, exec (.dmaStart ch v) s = .next t →
      (∀ k < (dmaAt s ch).count.toNat, ((dmaAt s ch).dst.toNat + k) % 2 ^ 32 ≠ x % 2 ^ 32) →
      guestByte t.mem x = guestByte s.mem x) ∧
    (∀ v, exec (.sdIssue v) s = .next t ∨ exec (.sdDmactrlW v) s = .next t →
      (∀ k < 4 * (s.sd.dmaCount.toNat / 4), (s.sd.dmaAddr.toNat + k) % 2 ^ 32 ≠ x % 2 ^ 32) →
      guestByte t.mem x = guestByte s.mem x) ∧
    (∀ p, s.cf.pendingDma = some p → exec .cfDmaSlice s = .next t →
      (∀ k, 4 * p.done.toNat ≤ k → k < 4 * p.words.toNat → (p.addr.toNat + k) % 2 ^ 32 ≠ x % 2 ^ 32) →
      guestByte t.mem x = guestByte s.mem x)

/-! ## Dispatcher -/

/-- The dispatcher's own operations complete. An access to an unknown address returns 0 and changes only the limiter; the
first five consecutive accesses to one address are logged, the later ones are silent (R126). A default access is silent
and changes nothing (R123), an unmodeled access and a channel-switch read log once and change nothing (R124, R239), a
model constant is returned (R125). -/
def Obligations.DispatcherAccesses : Prop :=
  ∀ (a v : Word) (s : State),
    (∀ n, n = (if s.lim.lastUnknown = some a then s.lim.count + 1 else 1) →
      exec (.accUnknownR a) s = .next
        { s with
          lim := ⟨some a, n⟩
          calls := if n ≤ 5 then .log .unknown (.access a false 0 s.env.pc) :: s.calls else s.calls
          ret := some 0 } ∧
      exec (.accUnknownW a v) s = .next
        { s with
          lim := ⟨some a, n⟩
          calls := if n ≤ 5 then .log .unknown (.access a true v s.env.pc) :: s.calls else s.calls
          ret := some 0 }) ∧
    exec (.accDefaultR a) s = .next { s with ret := some 0 } ∧
    exec (.accDefaultW a v) s = .next { s with ret := some 0 } ∧
    exec (.accUnmodeledR a) s = .next
      { s with ret := some 0, calls := .log .unmodeled (.access a false 0 s.env.pc) :: s.calls } ∧
    exec (.accUnmodeledW a v) s = .next
      { s with ret := some 0, calls := .log .unmodeled (.access a true v s.env.pc) :: s.calls } ∧
    exec (.chswRead a) s = .next
      { s with ret := some 0, calls := .log .unmodeled (.access a false 0 s.env.pc) :: s.calls } ∧
    (∀ c, modelConstAt s.cfg a = some c → exec (.modelConstR a) s = .next { s with ret := some c })

/-! ## Interrupt controller -/

/-- `trigger(id, delay)` (R141, R142, R187, R403). With delay 0, an enabled line and nothing in service it delivers at once:
the line is recorded with the mask before its auto-disable, the CPU line is asserted with one `raise_irq()`, and only the
OS timer's line re-arms, while its channel runs. Every other trigger of a line sets its countdown to `max(delay, 1)`,
replacing any other. A trigger of an id outside the lines is the fatal stop, which changes nothing else. -/
def Obligations.Trigger : Prop :=
  ∀ (id d : Word) (s : State),
    (id.toNat < s.cfg.maxIrq → (lineAt s id.toNat).enabled = true → s.ic.active = none →
      exec (.icTrigger id 0) s = .next
        { s with
          ic :=
            { line := s.ic.line.set id.toNat
                { enabled := false
                  sched :=
                    if id = s.cfg.osTimerIrq ∧ (tmrAt s s.cfg.osTimerCh).enabled = true then
                      BitVec.ofNat 32 (max ((tmrAt s s.cfg.osTimerCh).reload.toNat / 256) 1)
                    else (lineAt s id.toNat).sched }
              active := some ⟨id.toNat, s.ic.line.map (·.enabled)⟩
              irqLine := true }
          calls := .raiseIrq :: s.calls }) ∧
    (id.toNat < s.cfg.maxIrq → (d ≠ 0 ∨ (lineAt s id.toNat).enabled = false ∨ s.ic.active ≠ none) →
      exec (.icTrigger id d) s = .next
        { s with
          ic := { s.ic with
            line := s.ic.line.set id.toNat { (lineAt s id.toNat) with sched := BitVec.ofNat 32 (max d.toNat 1) } } }) ∧
    (s.cfg.maxIrq ≤ id.toNat → exec (.icTrigger id d) s = .next { s with fatal := some (.irqIdOutOfRange id) })

/-- A read of IC_CURRENT returns the line in service, shifted, or 0, ends the service and lowers the CPU line (R145); a
second read returns 0 and changes nothing but one more `lower_irq()`. -/
def Obligations.Acknowledge : Prop :=
  ∀ s : State, ∃ t,
    t = { s with
      ic := { s.ic with active := none, irqLine := false }
      calls := .lowerIrq :: s.calls
      ret := some (match s.ic.active with
        | some x => BitVec.ofNat 32 (x.id * 2 ^ s.cfg.irqIdShift)
        | none => 0) } ∧
    exec .icAck s = .next t ∧
    exec .icAck t = .next { t with calls := .lowerIrq :: t.calls, ret := some 0 }

/-- A write of IC_ENABLE enables the line it names and does nothing else, even for a pending line; an id outside the lines
is an unmodeled access (R146). A write of IC_DISABLE[k] disables exactly the lines its mask names, keeps every countdown
and the line in service, and lowers the CPU line, with one `lower_irq()`, exactly when the line in service is named
(R147). -/
def Obligations.EnableAndDisable : Prop :=
  ∀ (k : Nat) (v : Word) (s : State),
    (v.toNat < s.cfg.maxIrq → exec (.icEnableW v) s = .next
      { s with
        ic := { s.ic with line := s.ic.line.set v.toNat { (lineAt s v.toNat) with enabled := true } }
        ret := some 0 }) ∧
    (s.cfg.maxIrq ≤ v.toNat → exec (.icEnableW v) s = .next
      { s with ret := some 0, calls := .log .unmodeled (.icEnable v s.env.pc) :: s.calls }) ∧
    ∃ t,
      exec (.icDisableW k v) s = .next t ∧
      (∀ j, lineAt t j =
        if 32 * k ≤ j ∧ j < 32 * k + 32 ∧ v.getLsbD (j - 32 * k) = true ∧ j < s.cfg.maxIrq then
          { lineAt s j with enabled := false }
        else lineAt s j) ∧
      t.ic.active = s.ic.active ∧ t.ic.line.length = s.ic.line.length ∧
      (∀ x, s.ic.active = some x →
        32 * k ≤ x.id → x.id < 32 * k + 32 → v.getLsbD (x.id - 32 * k) = true → x.id < s.cfg.maxIrq →
        t.ic.irqLine = false ∧ t.calls = .lowerIrq :: s.calls) ∧
      ((∀ x, s.ic.active = some x →
        ¬ (32 * k ≤ x.id ∧ x.id < 32 * k + 32 ∧ v.getLsbD (x.id - 32 * k) = true ∧ x.id < s.cfg.maxIrq)) →
        t.ic.irqLine = s.ic.irqLine ∧ t.calls = s.calls) ∧
      t = { s with ic := t.ic, calls := t.calls, ret := some 0 }

/-- The tick walk, with a line in service or with no line ready (R149): every countdown above 1 goes down by one, every
line at 1 waits, and nothing else changes. -/
def Obligations.TickWalkCountsDown : Prop :=
  ∀ s : State, s.agents.cpuHalted = false → s.fatal = none → s.ic.line.length = s.cfg.maxIrq →
    (s.ic.active ≠ none ∨ ∀ j, ¬ ((lineAt s j).enabled = true ∧ (lineAt s j).sched = 1)) →
    exec .icTickWalk s = .next
      { s with
        ic := { s.ic with
          line := s.ic.line.map (fun l => if 1 < l.sched then { l with sched := l.sched - 1 } else l) } }

/-- The tick walk delivers one line, the ready one of highest id, the OS timer's line last (R148, R149, R151): with
nothing in service, the ready line that no other ready line precedes is delivered, and every other line counts down or
waits. -/
def Obligations.TickWalkDelivers : Prop :=
  ∀ (s : State) (id : Nat), s.agents.cpuHalted = false → s.fatal = none → s.ic.line.length = s.cfg.maxIrq →
    s.ic.active = none → (lineAt s id).enabled = true → (lineAt s id).sched = 1 →
    (∀ j, (lineAt s j).enabled = true → (lineAt s j).sched = 1 → j ≠ id →
      j = s.cfg.osTimerIrq.toNat ∨ (j < id ∧ id ≠ s.cfg.osTimerIrq.toNat)) →
    ∃ t, exec .icTickWalk s = .next t ∧ t = { s with ic := t.ic, calls := .raiseIrq :: s.calls } ∧
      t.ic.active = some ⟨id, s.ic.line.map (·.enabled)⟩ ∧ t.ic.irqLine = true ∧
      (∀ j, j ≠ id → lineAt t j =
        { lineAt s j with sched := if 1 < (lineAt s j).sched then (lineAt s j).sched - 1 else (lineAt s j).sched }) ∧
      lineAt t id =
        { enabled := false
          sched :=
            if id = s.cfg.osTimerIrq.toNat ∧ (tmrAt s s.cfg.osTimerCh).enabled = true then
              BitVec.ofNat 32 (max ((tmrAt s s.cfg.osTimerCh).reload.toNat / 256) 1)
            else 0 }

/-- A countdown of `d` is delivered in exactly the `d`-th tick walk (R150), with the line enabled, nothing in service and
no other line that could be delivered: after `k < d` walks the line is still pending at `d - k`, after `d` it is in
service. -/
def Obligations.CountdownIsExact : Prop :=
  ∀ (s : State) (id d : Nat), s.ic.line.length = s.cfg.maxIrq → s.ic.active = none → 0 < d →
    (lineAt s id).enabled = true → (lineAt s id).sched.toNat = d →
    (∀ j, j ≠ id → (lineAt s j).enabled = false ∨ (lineAt s j).sched = 0) →
    (∀ k < d, (tickWalks k s).ic.active = none ∧ (lineAt (tickWalks k s) id).sched.toNat = d - k) ∧
    (tickWalks d s).ic.active.map (·.id) = some id ∧ (tickWalks d s).ic.irqLine = true

/-! ## Timers -/

/-- The plain timer registers (R97, R183, R184, R185, R188, R190, R191): a TMR_RELOAD write stores the value; an HPT_CMP
write stores the value quantized to the clock's values and changes neither `active` nor the latch; an HPT_CTRL write sets
`active` from bit 0 and leaves the latch; every one reads as its state, without side effect. -/
def Obligations.TimerRegisters : Prop :=
  ∀ (n : Nat) (v : Word) (s : State),
    exec (.tmrReloadW n v) s = .next { s with tmr := s.tmr.set n { tmrAt s n with reload := v }, ret := some 0 } ∧
    exec (.tmrReloadR n) s = .next { s with ret := some (tmrAt s n).reload } ∧
    exec (.tmrValueR n) s = .next { s with ret := some (tmrAt s n).current } ∧
    exec (.tmrCtrlR n) s = .next { s with ret := some (if (tmrAt s n).enabled then 1 else 0) } ∧
    exec .clockR s = .next { s with ret := some s.clock } ∧
    exec (.hptCmpW n v) s = .next
      { s with
        hpt := s.hpt.set n
          { hptAt s n with ocv := BitVec.ofNat 32 (v.toNat % s.cfg.clockMod / s.cfg.clockStep * s.cfg.clockStep) }
        ret := some 0 } ∧
    exec (.hptCmpR n) s = .next { s with ret := some (hptAt s n).ocv } ∧
    exec (.hptCtrlW n v) s = .next
      { s with hpt := s.hpt.set n { hptAt s n with active := v.getLsbD 0 }, ret := some 0 } ∧
    exec (.hptCtrlR n) s = .next { s with ret := some (if (hptAt s n).active then 1 else 0) }

/-- A TMR_CTRL write whose bit 0 is 1 starts the channel without changing its value, and for the OS channel arms the OS
line's countdown at `max(reload >> 8, 1)`; with bit 0 clear it stops the channel and cancels nothing (R93, R98, R182,
R186). -/
def Obligations.TimerStartStop : Prop :=
  ∀ (n : Nat) (v : Word) (s : State), n < s.tmr.length →
    (v.getLsbD 0 = true → n ≠ s.cfg.osTimerCh → exec (.tmrCtrlW n v) s = .next
      { s with tmr := s.tmr.set n { tmrAt s n with enabled := true }, ret := some 0 }) ∧
    (v.getLsbD 0 = true → n = s.cfg.osTimerCh → exec (.tmrCtrlW n v) s = .next
      { s with
        tmr := s.tmr.set n { tmrAt s n with enabled := true }
        ic := { s.ic with
          line := s.ic.line.set s.cfg.osTimerIrq.toNat
            { lineAt s s.cfg.osTimerIrq.toNat with
              sched := BitVec.ofNat 32 (max ((tmrAt s n).reload.toNat / 256) 1) } }
        ret := some 0 }) ∧
    (v.getLsbD 0 = false → exec (.tmrCtrlW n v) s = .next
      { s with tmr := s.tmr.set n { tmrAt s n with enabled := false }, ret := some 0 })

/-- TMR_TICK: the clock advances by the step modulo the wrap (R180), every running channel counts up by the step and goes
to 0 when that exceeds its reload value, and a stopped channel keeps its value (R181). Nothing else changes. -/
def Obligations.TimersAdvance : Prop :=
  ∀ s : State, s.agents.cpuHalted = false → s.fatal = none →
    ∃ t, exec .tmrTick s = .next t ∧ t = { s with clock := t.clock, tmr := t.tmr } ∧
      t.tmr.length = s.tmr.length ∧
      (s.cfg.timersOk = true → t.clock.toNat = (s.clock.toNat + s.cfg.clockStep) % s.cfg.clockMod) ∧
      ∀ n, n < s.tmr.length →
        (tmrAt t n).enabled = (tmrAt s n).enabled ∧ (tmrAt t n).reload = (tmrAt s n).reload ∧
        (tmrAt t n).current.toNat =
          if (tmrAt s n).enabled = true then
            (if (tmrAt s n).reload.toNat < (tmrAt s n).current.toNat + s.cfg.clockStep then 0
              else (tmrAt s n).current.toNat + s.cfg.clockStep)
          else (tmrAt s n).current.toNat

/-- The HPTimer latches. HPT_STATUS reads as the eight latches, bits 31:8 zero, without clearing them (R194); a write clears
exactly the latches whose bit is 1 (R195); HPT_TICK sets exactly the latches of the active channels whose compare value
equals the clock, and deactivates those when HPT_ONESHOT (R193). -/
def Obligations.HpTimerLatches : Prop :=
  ∀ (v : Word) (s : State),
    (∃ x : Word, exec .hptStatusR s = .next { s with ret := some x } ∧
      (∀ n < 8, x.getLsbD n = (hptAt s n).triggered) ∧ ∀ n, 8 ≤ n → x.getLsbD n = false) ∧
    (∃ t, exec (.hptStatusW v) s = .next t ∧ t = { s with hpt := t.hpt, ret := some 0 } ∧
      t.hpt.length = s.hpt.length ∧
      ∀ n, hptAt t n = if n < 8 ∧ v.getLsbD n = true then { hptAt s n with triggered := false } else hptAt s n) ∧
    (s.agents.cpuHalted = false → s.fatal = none →
      ∃ t, exec .hptTick s = .next t ∧ t = { s with hpt := t.hpt } ∧ t.hpt.length = s.hpt.length ∧
        ∀ n, hptAt t n =
          if (hptAt s n).active = true ∧ (hptAt s n).ocv = s.clock ∧ n < s.hpt.length then
            { active := !s.cfg.hptOneshot, ocv := (hptAt s n).ocv, triggered := true }
          else hptAt s n)

/-! ## DMA -/

/-- The DMA registers are pass-through (R210, R211, R212). -/
def Obligations.DmaRegisters : Prop :=
  ∀ (c : Nat) (v : Word) (s : State),
    exec (.dmaSrcW c v) s = .next { s with dma := s.dma.set c { dmaAt s c with src := v }, ret := some 0 } ∧
    exec (.dmaDstW c v) s = .next { s with dma := s.dma.set c { dmaAt s c with dst := v }, ret := some 0 } ∧
    exec (.dmaCountW c v) s = .next { s with dma := s.dma.set c { dmaAt s c with count := v }, ret := some 0 } ∧
    exec (.dmaSrcR c) s = .next { s with ret := some (dmaAt s c).src } ∧
    exec (.dmaDstR c) s = .next { s with ret := some (dmaAt s c).dst } ∧
    exec (.dmaCountR c) s = .next { s with ret := some (dmaAt s c).count }

/-- A DMA start copies the whole range before it returns and owes `trigger(DMA_IRQ[c], count div DMA_K)` (R213, R85). The
copy goes block by block, in ascending order, each block read whole and then written, so overlapping ranges too have the
one result R213 gives (D29); where there is memory behind the source and the ranges do not overlap, or the copy is one
block, the destination holds the source's bytes. The channel's registers stay; a write whose bit 0 is 0 does nothing
(R93). What a read returns, and that a block is one `MemRead` call, is notes/assumptions/3.md. -/
def Obligations.DmaStartCopies : Prop :=
  ∀ (c : Nat) (v irq : Word) (s : State) (src dst n block : Nat), s.mem.wf = true → 1 ≤ s.cfg.dmaBlock →
    s.cfg.dmaIrq[c]? = some irq → src = (dmaAt s c).src.toNat → dst = (dmaAt s c).dst.toNat →
    n = (dmaAt s c).count.toNat → block = s.cfg.dmaBlock →
    (v.getLsbD 0 = false → exec (.dmaStart c v) s = .next { s with ret := some 0 }) ∧
    (v.getLsbD 0 = true →
      ∃ t, exec (.dmaStart c v) s = .next t ∧
        t = { s with
          mem := t.mem
          agents := { s.agents with cpuQueue := s.agents.cpuQueue ++ [⟨irq, BitVec.ofNat 32 (n / s.cfg.dmaK)⟩] }
          ret := some 0 } ∧
        (∃ g : Nat → Guest, g 0 = s.mem ∧ g ((n + block - 1) / block) = t.mem ∧
          ∀ j, j * block < n →
            (g (j + 1)).holes = (g j).holes ∧ (g (j + 1)).reads = (g j).reads + 1 ∧
            (∀ i < block, j * block + i < n →
              guestByte (g (j + 1)) (dst + (j * block + i)) = guestAnswer (g j) (src + (j * block + i))) ∧
            ∀ x, (∀ i < block, j * block + i < n → (dst + (j * block + i)) % 2 ^ 32 ≠ x % 2 ^ 32) →
              guestByte (g (j + 1)) x = guestByte (g j) x) ∧
        ((∀ i < n, ∀ j < n, (src + i) % 2 ^ 32 ≠ (dst + j) % 2 ^ 32) ∨ n ≤ block →
          (∀ i < n, s.mem.backed (src + i) = true) → ∀ i < n, guestByte t.mem (dst + i) = guestByte s.mem (src + i)))

/-! ## EDMAC -/

/-- The EDMAC configuration registers are plain storage: a write changes that one register of that one channel, and a
read returns it (R230). -/
def Obligations.EdmacRegisters : Prop :=
  ∀ (r : EdmacReg) (ch : Nat) (v : Word) (s : State), ch < s.edmac.length →
    exec (.edmRegR r ch) s = .next { s with ret := some ((edmacAt s ch).regs.get r) } ∧
    ∃ t, exec (.edmRegW r ch v) s = .next t ∧ t = { s with edmac := t.edmac, ret := some 0 } ∧
      t.edmac.length = s.edmac.length ∧ (∀ c, c ≠ ch → edmacAt t c = edmacAt s c) ∧
      (∀ q, (edmacAt t ch).regs.get q = if q = r then v else (edmacAt s ch).regs.get q) ∧
      (edmacAt t ch).lastConn = (edmacAt s ch).lastConn ∧ (edmacAt t ch).started = (edmacAt s ch).started

/-- An EDMAC start of a channel with a table entry records the resolved connection, counts the start and owes
`trigger(id, 0)`, with `id` the table's (R233, R235, R236): a write channel resolves to its own connection, a read
channel to the least connection assigned to it. A channel with no entry is the fatal stop, and nothing else changes
(R236, R403). A write whose bit 0 is 0 does nothing (R93). -/
def Obligations.EdmacStart : Prop :=
  ∀ (ch : Nat) (v : Word) (s : State),
    (v.getLsbD 0 = false → exec (.edmStart ch v) s = .next { s with ret := some 0 }) ∧
    (v.getLsbD 0 = true → edmacIrq s.cfg ch = none →
      exec (.edmStart ch v) s = .next { s with fatal := some (.edmacNoIrq ch) }) ∧
    (∀ x irq, v.getLsbD 0 = true → s.cfg.edmac[ch]? = some x → x.irq = some irq →
      ∃ conn, exec (.edmStart ch v) s = .next
          { s with
            edmac := s.edmac.set ch
              { edmacAt s ch with lastConn := conn, started := (edmacAt s ch).started + 1 }
            agents := { s.agents with cpuQueue := s.agents.cpuQueue ++ [⟨irq, 0⟩] }
            ret := some 0 } ∧
        (x.isWrite = true → conn = (s.conn.writeConn[ch]?).getD none) ∧
        (x.isWrite = false → ∀ i, conn = some i ↔
          i.toNat < 32 ∧ s.conn.readConn[i.toNat]? = some (some ch) ∧
            ∀ j < i.toNat, s.conn.readConn[j]? ≠ some (some ch)))

/-- A channel-switch write assigns a connection (R237, R238): a slot with a table entry sets the read connection the value
names to the entry's channel, or the entry's channel's write connection to the value; a place that is no slot, an index
with no entry, or a read connection of 32 or more is logged and changes nothing. The fields of the diagnostic, and that an
entry beyond `N_EDMAC` stores nothing, are the model's own (notes/assumptions/22.md, notes/assumptions/21.md). -/
def Obligations.ChannelSwitchWrites : Prop :=
  ∀ (second : Bool) (off : Nat) (v : Word) (s : State),
    (∀ sub, sub = (if second then ChswSub.r1 else .r0) →
      (∀ ch, off % 4 = 0 → (s.cfg.chsw sub).map[off / 4]? = some (some ch) → v.toNat < 32 →
        exec (.chswRW second off v) s = .next
          { s with conn := { s.conn with readConn := s.conn.readConn.set v.toNat (some ch) }, ret := some 0 }) ∧
      (off % 4 ≠ 0 ∨ (∀ ch, (s.cfg.chsw sub).map[off / 4]? ≠ some (some ch)) ∨ 32 ≤ v.toNat →
        exec (.chswRW second off v) s = .next
          { s with calls := .log .unmodeled (.chsw sub off v s.env.pc) :: s.calls, ret := some 0 })) ∧
    (∀ sub, sub = (if second then ChswSub.w1 else .w0) →
      (∀ ch, off % 4 = 0 → (s.cfg.chsw sub).map[off / 4]? = some (some ch) →
        exec (.chswWW second off v) s = .next
          { s with conn := { s.conn with writeConn := s.conn.writeConn.set ch (some v) }, ret := some 0 }) ∧
      (off % 4 ≠ 0 ∨ (∀ ch, (s.cfg.chsw sub).map[off / 4]? ≠ some (some ch)) →
        exec (.chswWW second off v) s = .next
          { s with calls := .log .unmodeled (.chsw sub off v s.env.pc) :: s.calls, ret := some 0 }))

/-! ## SDIO -/

/-- The plain storage registers store and read back, without side effect on a read: of the SDIO controller (R260 to R263,
R267, R268, R270, R272), of the CF controller (R283, R284, R285). A write of SD_IRQ_EN sets the enable and hands a waiting
completion over, once (R270, R271). -/
def Obligations.StorageRegisters : Prop :=
  ∀ (v : Word) (s : State),
    exec (.sdCmdloW v) s = .next { s with sd := { s.sd with cmdLo := v }, ret := some 0 } ∧
    exec (.sdCmdhiW v) s = .next { s with sd := { s.sd with cmdHi := v }, ret := some 0 } ∧
    exec (.sdDmaregW .addr v) s = .next { s with sd := { s.sd with dmaAddr := v }, ret := some 0 } ∧
    exec (.sdDmaregW .count v) s = .next { s with sd := { s.sd with dmaCount := v }, ret := some 0 } ∧
    exec .sdCmdloR s = .next { s with ret := some s.sd.cmdLo } ∧
    exec .sdCmdhiR s = .next { s with ret := some s.sd.cmdHi } ∧
    exec (.sdDmaregR .addr) s = .next { s with ret := some s.sd.dmaAddr } ∧
    exec (.sdDmaregR .count) s = .next { s with ret := some s.sd.dmaCount } ∧
    exec .sdDmactrlR s = .next { s with ret := some (if s.sd.dmaEnabled then 1 else 0) } ∧
    exec .sdIrqenR s = .next { s with ret := some (if s.sd.irqEn then 1 else 0) } ∧
    exec .sdStatusR s = .next { s with ret := some s.sd.status } ∧
    exec .sdProgressR s = .next { s with ret := some s.sd.dmaProgress } ∧
    exec (.sdRespR 0) s = .next { s with ret := some s.sd.resp.r0 } ∧
    exec (.sdRespR 1) s = .next { s with ret := some s.sd.resp.r1 } ∧
    exec (.sdRespR 2) s = .next { s with ret := some s.sd.resp.r2 } ∧
    exec (.sdRespR 3) s = .next { s with ret := some s.sd.resp.r3 } ∧
    exec (.cfDmaregW .addr v) s = .next { s with cf := { s.cf with dmaAddr := v }, ret := some 0 } ∧
    exec (.cfDmaregW .count v) s = .next { s with cf := { s.cf with dmaCount := v }, ret := some 0 } ∧
    exec (.cfDmaenW v) s = .next { s with cf := { s.cf with dmaEnabled := v.getLsbD 0 }, ret := some 0 } ∧
    exec (.cfDmaregR .addr) s = .next { s with ret := some s.cf.dmaAddr } ∧
    exec (.cfDmaregR .count) s = .next { s with ret := some s.cf.dmaCount } ∧
    exec .cfDmaenR s = .next { s with ret := some (if s.cf.dmaEnabled then 1 else 0) } ∧
    exec .cfIntstatR s = .next { s with ret := some (if s.cf.irqPending then 1 else 0) } ∧
    exec (.sdIrqenW v) s = .next
      { s with
        sd := { s.sd with irqEn := v.getLsbD 0, irqPending := s.sd.irqPending && !v.getLsbD 0 }
        agents := { s.agents with
          cpuQueue :=
            if s.sd.irqPending && v.getLsbD 0 then s.agents.cpuQueue ++ [⟨s.cfg.sdIrq, 0⟩] else s.agents.cpuQueue }
        ret := some 0 }

/-- An issued command that moves no data now (R93, R96, R264, R265, R271, R404). A write whose bit 0 is 0 does nothing. A
command the backend fails: DONE and ERR alone in the status, the responses unchanged, no data phase, one completion. A
command that succeeds: the responses are SD_PACK of the answer and the status is DONE alone; a command outside {17, 18, 24,
25} completes with its interrupt; a data command with DMA not enabled waits for its data phase, its interrupt due at once
only for the single-block commands 17 and 24. A completion is handed over when interrupts are enabled. The backend's answer
is the next of the script, or free (notes/assumptions/4.md); the token split and the data commands are the spec's own
presumption (notes/assumptions/23.md); the diagnostic's field is the model's (notes/assumptions/22.md). -/
def Obligations.SdioIssue : Prop :=
  ∀ (v : Word) (s : State) (cmd : BitVec 6) (arg : BitVec 40) (r : SdResponse) (env : Env) (log : List Call),
    cmd = s.sd.cmdHi.extractLsb' 8 6 → arg = s.sd.cmdHi.extractLsb' 0 8 ++ s.sd.cmdLo →
    ((∃ rest, s.env.sdResponses = r :: rest ∧ env = { s.env with sdResponses := rest }) ∨
      (s.env.sdResponses = [] ∧ r = Config.sdCommand s.env.draws cmd arg ∧
        env = { s.env with draws := s.env.draws + 1 })) →
    log = .sdCommand cmd arg ::
      (if s.sd.outstanding.isSome then .log .protocol (.sdOutstanding s.env.pc) :: s.calls else s.calls) →
    (v.getLsbD 0 = false → exec (.sdIssue v) s = .next { s with ret := some 0 }) ∧
    (v.getLsbD 0 = true → r = .fail →
      exec (.sdIssue v) s = .next
        { s with
          sd := { s.sd with
            status := ((1 : Word) <<< s.cfg.sdStDone) ||| ((1 : Word) <<< s.cfg.sdStErr)
            outstanding := none, dmaProgress := 0, irqPending := !s.sd.irqEn }
          agents := { s.agents with
            cpuQueue := if s.sd.irqEn then s.agents.cpuQueue ++ [⟨s.cfg.sdIrq, 0⟩] else s.agents.cpuQueue }
          env := env, calls := log, ret := some 0 }) ∧
    (v.getLsbD 0 = true → r ≠ .fail → (cmd ∉ [17, 18, 24, 25] ∨ s.sd.dmaEnabled = false) →
      ∃ pending : Bool, pending = (if cmd ∈ [18, 25] then s.sd.irqPending else true) ∧
        exec (.sdIssue v) s = .next
          { s with
            sd := { s.sd with
              resp := sdPacked s.cfg r
              status := (1 : Word) <<< s.cfg.sdStDone
              outstanding :=
                if cmd = 17 then some ⟨17, .read, false⟩ else if cmd = 18 then some ⟨18, .read, true⟩
                else if cmd = 24 then some ⟨24, .write, false⟩ else if cmd = 25 then some ⟨25, .write, true⟩ else none
              dmaProgress := 0
              irqPending := pending && !s.sd.irqEn }
            agents := { s.agents with
              cpuQueue := if pending && s.sd.irqEn then s.agents.cpuQueue ++ [⟨s.cfg.sdIrq, 0⟩] else s.agents.cpuQueue }
            env := env, calls := log, ret := some 0 })

/-- An issued data command whose data phase runs at once, DMA being enabled (R96, R264, R265, R266, R271): commands 17 and
18 fill guest memory with the backend's bytes, in stream order, commands 24 and 25 send the bytes read from guest memory to
the backend in ascending order, whole word-quads each; DONE and "data available" are set, nothing is outstanding, and one
interrupt is due, handed over when interrupts are enabled. The backend's answers are the next of the script, or free
(notes/assumptions/4.md); the token split and the data commands are the spec's own presumption (notes/assumptions/23.md);
the diagnostic's field, and what a guest read returns, are the model's (notes/assumptions/22.md, notes/assumptions/3.md). -/
def Obligations.SdioIssueWithData : Prop :=
  ∀ (v : Word) (s : State) (cmd : BitVec 6) (arg : BitVec 40) (r : SdResponse) (env : Env) (n : Nat) (done : SdState)
    (q : List TriggerCall) (log : List Call),
    cmd = s.sd.cmdHi.extractLsb' 8 6 → arg = s.sd.cmdHi.extractLsb' 0 8 ++ s.sd.cmdLo →
    ((∃ rest, s.env.sdResponses = r :: rest ∧ env = { s.env with sdResponses := rest }) ∨
      (s.env.sdResponses = [] ∧ r = Config.sdCommand s.env.draws cmd arg ∧
        env = { s.env with draws := s.env.draws + 1 })) →
    v.getLsbD 0 = true → r ≠ .fail → s.sd.dmaEnabled = true → n = 4 * (s.sd.dmaCount.toNat / 4) →
    done = { s.sd with
      resp := sdPacked s.cfg r
      status := ((1 : Word) <<< s.cfg.sdStDone) ||| ((1 : Word) <<< s.cfg.sdStData)
      outstanding := none, dmaProgress := BitVec.ofNat 32 n, irqPending := !s.sd.irqEn } →
    q = (if s.sd.irqEn then s.agents.cpuQueue ++ [⟨s.cfg.sdIrq, 0⟩] else s.agents.cpuQueue) →
    log = .sdCommand cmd arg ::
      (if s.sd.outstanding.isSome then .log .protocol (.sdOutstanding s.env.pc) :: s.calls else s.calls) →
    (cmd ∈ [(17 : BitVec 6), 18] → s.mem.wf = true →
      ∃ t bs env', exec (.sdIssue v) s = .next t ∧
        t = { s with
          sd := done, agents := { s.agents with cpuQueue := q }, env := env', calls := log, mem := t.mem
          ret := some 0 } ∧
        bs.length = n ∧ (∀ i (h : i < bs.length), guestByte t.mem (s.sd.dmaAddr.toNat + i) = bs[i]) ∧
        ∀ script more, s.env.sdBytes = script ++ more → script.length = n →
          bs = script ∧ env' = { env with sdBytes := more }) ∧
    (cmd ∈ [(24 : BitVec 6), 25] →
      exec (.sdIssue v) s = .next
        { s with
          sd := done, agents := { s.agents with cpuQueue := q }, env := env, mem := s.mem.after 1
          calls :=
            ((List.range n).map
              (fun i => Call.sdWriteByte (guestAnswer s.mem (s.sd.dmaAddr.toNat + i)))).reverse ++ log
          ret := some 0 })

/-- A write of SD_DMA_CTRL (R263, R266, R271): with no data command outstanding, or with bit 0 clear, it sets the enable
and hands over a waiting completion; with a data command outstanding and bit 0 set it runs the data phase whole, a read
filling guest memory in stream order, a write sending the guest bytes in ascending order, and the phase's own completion is
due for a multi-block command only. The backend's bytes are the next of the script, or free (notes/assumptions/4.md); what a
guest read returns is notes/assumptions/3.md. -/
def Obligations.SdioDmaControl : Prop :=
  ∀ (v : Word) (s : State),
    (s.sd.outstanding = none ∨ v.getLsbD 0 = false → exec (.sdDmactrlW v) s = .next
      { s with
        sd := { s.sd with dmaEnabled := v.getLsbD 0, irqPending := s.sd.irqPending && !s.sd.irqEn }
        agents := { s.agents with
          cpuQueue :=
            if s.sd.irqPending && s.sd.irqEn then s.agents.cpuQueue ++ [⟨s.cfg.sdIrq, 0⟩] else s.agents.cpuQueue }
        ret := some 0 }) ∧
    (∀ cmd dir multi n done q, s.sd.outstanding = some ⟨cmd, dir, multi⟩ → v.getLsbD 0 = true →
      n = 4 * (s.sd.dmaCount.toNat / 4) →
      done = { s.sd with
        dmaEnabled := true, outstanding := none, dmaProgress := BitVec.ofNat 32 n
        status := s.sd.status ||| ((1 : Word) <<< s.cfg.sdStData)
        irqPending := (multi || s.sd.irqPending) && !s.sd.irqEn } →
      q = (if (multi || s.sd.irqPending) && s.sd.irqEn then s.agents.cpuQueue ++ [⟨s.cfg.sdIrq, 0⟩]
        else s.agents.cpuQueue) →
      (dir = .read → s.mem.wf = true →
        ∃ t bs env, exec (.sdDmactrlW v) s = .next t ∧
          t = { s with
            sd := done, agents := { s.agents with cpuQueue := q }, env := env, mem := t.mem, ret := some 0 } ∧
          bs.length = n ∧ (∀ i (h : i < bs.length), guestByte t.mem (s.sd.dmaAddr.toNat + i) = bs[i]) ∧
          ∀ script more, s.env.sdBytes = script ++ more → script.length = n →
            bs = script ∧ env = { s.env with sdBytes := more }) ∧
      (dir = .write → exec (.sdDmactrlW v) s = .next
        { s with
          sd := done, agents := { s.agents with cpuQueue := q }, mem := s.mem.after 1
          calls :=
            ((List.range n).map
              (fun i => Call.sdWriteByte (guestAnswer s.mem (s.sd.dmaAddr.toNat + i)))).reverse ++ s.calls
          ret := some 0 }))

/-! ## CF/ATA -/

/-- The ATA window is forwarded to the IDE abstraction and its completions set the pending flag and owe `trigger(CF_IRQ,
0)` exactly when ATA interrupts are enabled (R280, R281); a read of the status register clears the flag (R282). The answers
are the next of the scripts, or free (notes/assumptions/4.md): the last clause covers every state. That a completion may come
with a forwarded access or as a move of its own, and none with a status read, are the model's own
(notes/assumptions/14.md, notes/assumptions/13.md). -/
def Obligations.CfAtaAccesses : Prop :=
  ∀ (off : Nat) (v : Word) (s : State),
    (∀ x xs done ds en es, s.env.ideValues = x :: xs → s.env.ideDone = done :: ds → s.env.ataIrqEnabled = en :: es →
      (∃ t, exec (.cfAtaR off) s = .next t ∧ t = { s with
        cf := { s.cf with irqPending := (done && en) || s.cf.irqPending }
        agents := { s.agents with
          cpuQueue := if done && en then s.agents.cpuQueue ++ [⟨s.cfg.cfIrq, 0⟩] else s.agents.cpuQueue }
        env := { s.env with ideValues := xs, ideDone := ds, ataIrqEnabled := if done then es else en :: es }
        calls := .ideRead off :: s.calls
        ret := some x }) ∧
      (∃ t, exec (.cfAtaW off v) s = .next t ∧ t = { s with
        cf := { s.cf with irqPending := (done && en) || s.cf.irqPending }
        agents := { s.agents with
          cpuQueue := if done && en then s.agents.cpuQueue ++ [⟨s.cfg.cfIrq, 0⟩] else s.agents.cpuQueue }
        env := { s.env with ideDone := ds, ataIrqEnabled := if done then es else en :: es }
        calls := .ideWrite off v :: s.calls
        ret := some 0 }) ∧
      (exec .cfIdeDone s = .next { s with
        cf := { s.cf with irqPending := en || s.cf.irqPending }
        agents := { s.agents with
          cpuQueue := if en then s.agents.cpuQueue ++ [⟨s.cfg.cfIrq, 0⟩] else s.agents.cpuQueue }
        env := { s.env with ataIrqEnabled := es } }) ∧
      (exec .cfStatusR s = .next { s with
        cf := { s.cf with irqPending := false }
        env := { s.env with ideValues := xs }
        calls := .ideRead s.cfg.cfStatusOff :: s.calls
        ret := some x })) ∧
    (∃ (x : Word) (done en : Bool) (env : Env), exec (.cfAtaR off) s = .next
      { s with
        cf := { s.cf with irqPending := (done && en) || s.cf.irqPending }
        agents := { s.agents with
          cpuQueue := if done && en then s.agents.cpuQueue ++ [⟨s.cfg.cfIrq, 0⟩] else s.agents.cpuQueue }
        env := env, calls := .ideRead off :: s.calls, ret := some x }) ∧
    (∃ (done en : Bool) (env : Env), exec (.cfAtaW off v) s = .next
      { s with
        cf := { s.cf with irqPending := (done && en) || s.cf.irqPending }
        agents := { s.agents with
          cpuQueue := if done && en then s.agents.cpuQueue ++ [⟨s.cfg.cfIrq, 0⟩] else s.agents.cpuQueue }
        env := env, calls := .ideWrite off v :: s.calls, ret := some 0 }) ∧
    (∃ (en : Bool) (env : Env), exec .cfIdeDone s = .next
      { s with
        cf := { s.cf with irqPending := en || s.cf.irqPending }
        agents := { s.agents with
          cpuQueue := if en then s.agents.cpuQueue ++ [⟨s.cfg.cfIrq, 0⟩] else s.agents.cpuQueue }
        env := env }) ∧
    (∃ (x : Word) (env : Env), exec .cfStatusR s = .next
      { s with
        cf := { s.cf with irqPending := false }
        env := env, calls := .ideRead s.cfg.cfStatusOff :: s.calls, ret := some x })

/-- A CF DMA request with CF DMA enabled is only flagged: no data moves, a transfer already pending is replaced with one
diagnostic (R286, R100). With CF DMA not enabled it is the fatal stop and changes nothing else (R286, R403). Any other
value is an unmodeled access; the decoder gives this operation no such value, a write of one being the unmodeled access
itself (`Obligations.WrongAccessesAreUnmodeled`). The fields of the diagnostics are the model's own
(notes/assumptions/22.md). -/
def Obligations.CfDmaRequest : Prop :=
  ∀ (v : Word) (s : State), s.cfg.cfDmaWriteCmd ≠ 0x39 →
    (∀ dir, (v = 0x39 ∧ dir = Dir.read) ∨ (v = s.cfg.cfDmaWriteCmd ∧ dir = Dir.write) →
      (s.cf.dmaEnabled = true → exec (.cfDmaReq v) s = .next
        { s with
          cf := { s.cf with
            pendingDma := some ⟨dir, s.cf.dmaAddr, BitVec.ofNat 32 (s.cf.dmaCount.toNat / 4), 0⟩ }
          calls := if s.cf.pendingDma.isSome then .log .protocol (.cfPending s.env.pc) :: s.calls else s.calls
          ret := some 0 }) ∧
      (s.cf.dmaEnabled = false → exec (.cfDmaReq v) s = .next { s with fatal := some .cfDmaNotEnabled })) ∧
    (v ≠ 0x39 → v ≠ s.cfg.cfDmaWriteCmd → exec (.cfDmaReq v) s = .next
      { s with calls := .log .unmodeled (.cfDmaCtrl v s.env.pc) :: s.calls, ret := some 0 })

/-- One CF slice (R287, R370). With nothing pending, or a backend not ready, no word moves. With a backend ready for `m`
words of the slice and then not (R287 "break"), or for all `min(CF_SLICE_WORDS, words left)` of them, exactly those words go
to guest memory in stream order, or, with a write transfer, from guest memory to the backend in ascending order. In every
state, whatever the backend answers, the slice completes, at most `min(CF_SLICE_WORDS, words left)` words move, and the
CF_IRQ sub-step comes next exactly when the transfer is complete. A slice changes no byte of guest memory but the four bytes
of each word it moves. That the slice runs on its own in any phase is the model's own
(notes/assumptions/10.md); an answer is the next of the script, or free (notes/assumptions/4.md). -/
def Obligations.CfSlice : Prop :=
  ∀ s : State, s.agents.cpuHalted = false → s.fatal = none → 1 ≤ s.cfg.cfSliceWords →
    (∃ t, exec .cfDmaSlice s = .next t) ∧
    (s.cf.pendingDma = none → exec .cfDmaSlice s = .next
      { s with agents := { s.agents with tickPhase := .timers } }) ∧
    (∀ p more, s.cf.pendingDma = some p → p.done < p.words → s.env.cfReady = false :: more →
      exec .cfDmaSlice s = .next
        { s with agents := { s.agents with tickPhase := .timers }, env := { s.env with cfReady := more } }) ∧
    (∀ p left, s.cf.pendingDma = some p → p.done ≤ p.words →
      left = min s.cfg.cfSliceWords (p.words.toNat - p.done.toNat) →
      (∀ m ready bs moreBytes, p.dir = .read → m ≤ left →
        s.env.cfReady = List.replicate m true ++ (if m < left then false :: ready else ready) →
        s.env.cfBytes = bs ++ moreBytes → bs.length = 4 * m → 4 * m ≤ 2 ^ 32 → s.mem.wf = true →
        ∃ t, exec .cfDmaSlice s = .next t ∧
          t = { s with
            mem := t.mem
            cf := { s.cf with
              pendingDma :=
                if p.done.toNat + m = p.words.toNat then none else some { p with done := p.done + BitVec.ofNat 32 m } }
            agents := { s.agents with
              tickPhase := if p.done.toNat + m = p.words.toNat then .cfIrq else .timers }
            env := { s.env with cfReady := ready, cfBytes := moreBytes } } ∧
          t.mem = { s.mem with cells := t.mem.cells } ∧
          (∀ i (h : i < bs.length), guestByte t.mem (p.addr.toNat + 4 * p.done.toNat + i) = bs[i]) ∧
          ∀ x, (∀ i < 4 * m, (p.addr.toNat + 4 * p.done.toNat + i) % 2 ^ 32 ≠ x % 2 ^ 32) →
            guestByte t.mem x = guestByte s.mem x) ∧
      (∀ m ready, p.dir = .write → m ≤ left →
        s.env.cfReady = List.replicate m true ++ (if m < left then false :: ready else ready) →
        exec .cfDmaSlice s = .next
          { s with
            mem := s.mem.after m
            cf := { s.cf with
              pendingDma :=
                if p.done.toNat + m = p.words.toNat then none else some { p with done := p.done + BitVec.ofNat 32 m } }
            agents := { s.agents with
              tickPhase := if p.done.toNat + m = p.words.toNat then .cfIrq else .timers }
            env := { s.env with cfReady := ready }
            calls :=
              ((List.range (4 * m)).map (fun i => Call.cfWriteByte (guestAnswer (s.mem.after (i / 4))
                (p.addr.toNat + 4 * p.done.toNat + i)))).reverse ++ s.calls }) ∧
      ∃ t m env, m ≤ left ∧ exec .cfDmaSlice s = .next t ∧
        t = { s with
          mem := t.mem
          cf := { s.cf with
            pendingDma :=
              if p.done.toNat + m = p.words.toNat then none else some { p with done := p.done + BitVec.ofNat 32 m } }
          agents := { s.agents with
            tickPhase := if p.done.toNat + m = p.words.toNat then .cfIrq else .timers }
          env := env, calls := t.calls } ∧
        (p.dir = .read → t.calls = s.calls ∧ t.mem = { s.mem with cells := t.mem.cells }) ∧
        (p.dir = .write → t.mem = s.mem.after m ∧ t.calls.length = s.calls.length + 4 * m) ∧
        (s.mem.wf = true → ∀ x, (∀ i < 4 * m, (p.addr.toNat + 4 * p.done.toNat + i) % 2 ^ 32 ≠ x % 2 ^ 32) →
          guestByte t.mem x = guestByte s.mem x))

/-- A CF DMA read is drained by the ticker (R287, R288, R447): over the slices of successive ticks, with the backend
always ready, exactly `words` words are copied, the transfer is complete after `ceil(words / CF_SLICE_WORDS)` slices
(one for an empty transfer) and not before. -/
def Obligations.CfTransferCompletes : Prop :=
  ∀ (s : State) (p : CfDma) (bs : List Byte) (n : Nat), 1 ≤ s.cfg.cfSliceWords → s.cf.pendingDma = some p →
    p.dir = .read → p.done = 0 → s.env.cfReady = List.replicate p.words.toNat true → s.env.cfBytes = bs →
    bs.length = 4 * p.words.toNat → 4 * p.words.toNat ≤ 2 ^ 32 →
    s.mem.wf = true →
    n = max 1 ((p.words.toNat + s.cfg.cfSliceWords - 1) / s.cfg.cfSliceWords) →
    (∀ k < n, (cfSlices k s).cf.pendingDma ≠ none) ∧ (cfSlices n s).cf.pendingDma = none ∧
    (cfSlices n s).env.cfReady = [] ∧ (cfSlices n s).env.cfBytes = [] ∧
    (∀ i (h : i < bs.length), guestByte (cfSlices n s).mem (p.addr.toNat + i) = bs[i]) ∧
    ∀ x, (∀ i < bs.length, (p.addr.toNat + i) % 2 ^ 32 ≠ x % 2 ^ 32) →
      guestByte (cfSlices n s).mem x = guestByte s.mem x

/-! ## Flash -/

/-- The command cycles that only change the bank's state (R313 to R318, R321, R322): in the state and with the cycle of
each row, the bank goes to the row's next state and nothing else changes. -/
def Obligations.FlashCommandCycles : Prop :=
  ∀ (s : State) (b off : Nat) (v : Word) (lit : Nat → Half → Prop) (go : FlashState → State),
    s.cfg.flashSmEnabled = true →
    (∀ l x, lit l x ↔ BitVec.ofNat 32 (off / 2) &&& s.cfg.flashCmdMask = BitVec.ofNat 32 l ∧ v.setWidth 16 = x) →
    (∀ st, go st = { s with flash := s.flash.set b { bankAt s b with state := st }, ret := some 0 }) →
    ((bankAt s b).state = .read → lit 0x555 0xAA → exec (.flUnlock1 b off v) s = .next (go .unlock2)) ∧
    ((bankAt s b).state = .unlock2 → lit 0x2AA 0x55 → exec (.flUnlock2 b off v) s = .next (go .unlocked)) ∧
    ((bankAt s b).state = .unlocked → lit 0x555 0xA0 → exec (.flCmdProgram b off v) s = .next (go .program)) ∧
    ((bankAt s b).state = .unlocked → lit 0x555 0x80 → exec (.flCmdErase b off v) s = .next (go .erase1)) ∧
    ((bankAt s b).state = .erase1 → lit 0x555 0xAA → exec (.flEraseUnlock1 b off v) s = .next (go .erase2)) ∧
    ((bankAt s b).state = .erase2 → lit 0x2AA 0x55 → exec (.flEraseUnlock2 b off v) s = .next (go .erase3)) ∧
    ((bankAt s b).state = .read → v.setWidth 16 = (0x80 : Half) →
      exec (.flBypassEraseEntry b off v) s = .next (go .unlockBypassErase)) ∧
    ((bankAt s b).state = .read → v.setWidth 16 = (0xA0 : Half) →
      exec (.flBypassProgramEntry b off v) s = .next (go .program))

/-- The erase cycles (R319, R320, R323, R324): a chip erase leaves every byte of the bank 0xFF and the bank in READ; a block
erase leaves exactly the block of the addressed byte 0xFF and the bank in BLOCK_ERASE_BUSY with no busy read counted. No
other bank and no other state changes. -/
def Obligations.FlashErases : Prop :=
  ∀ (s : State) (b off : Nat) (v : Word), s.cfg.flashSmEnabled = true → s.memOk → b < s.flash.length →
    (∀ i, (i = .flChipErase b off v ∧ (bankAt s b).state = .erase3 ∧
          BitVec.ofNat 32 (off / 2) &&& s.cfg.flashCmdMask = 0x555 ∧ v.setWidth 16 = (0x10 : Half)) ∨
        (i = .flBypassChipErase b off v ∧ (bankAt s b).state = .unlockBypassErase ∧
          v.setWidth 16 = (0x10 : Half)) →
      ∃ t, exec i s = .next t ∧ t = { s with flash := t.flash, ret := some 0 } ∧
        t.flash.length = s.flash.length ∧ (∀ j, j ≠ b → bankAt t j = bankAt s j) ∧
        (bankAt t b).state = .read ∧ (bankAt t b).busyReads = (bankAt s b).busyReads ∧
        ∀ x, memRead 0xFF (bankAt t b).image x = 0xFF) ∧
    (∀ i, (i = .flBlockErase b off v ∧ (bankAt s b).state = .erase3 ∧ v.setWidth 16 = (0x30 : Half)) ∨
        (i = .flBypassBlockErase b off v ∧ (bankAt s b).state = .unlockBypassErase ∧
          v.setWidth 16 = (0x30 : Half)) →
      ∃ t, exec i s = .next t ∧ t = { s with flash := t.flash, ret := some 0 } ∧
        t.flash.length = s.flash.length ∧ (∀ j, j ≠ b → bankAt t j = bankAt s j) ∧
        (bankAt t b).state = .blockEraseBusy ∧ (bankAt t b).busyReads = 0 ∧
        ∀ x, memRead 0xFF (bankAt t b).image x =
          if off - off % s.cfg.flashBlockSize ≤ x ∧ x < off - off % s.cfg.flashBlockSize + s.cfg.flashBlockSize then
            0xFF
          else memRead 0xFF (bankAt s b).image x)

/-- The writes that store data in a bank. The data cycle in PROGRAM (R325, R311): the addressed word becomes the AND of what
it held and the value, and the bank returns to READ. With the state machine disabled (R330) a write stores its low bytes
at its offset, inside the bank, and a command value is data. No other byte, bank or state changes. -/
def Obligations.FlashStores : Prop :=
  ∀ (s : State) (b off : Nat) (v : Word), s.memOk → b < s.flash.length →
    (s.cfg.flashSmEnabled = true → 2 * (off / 2) + 1 < s.cfg.bankSize b → (bankAt s b).state = .program →
      ∃ t, exec (.flProgramData b off v) s = .next t ∧ t = { s with flash := t.flash, ret := some 0 } ∧
        t.flash.length = s.flash.length ∧ (∀ j, j ≠ b → bankAt t j = bankAt s j) ∧
        (bankAt t b).state = .read ∧ (bankAt t b).busyReads = (bankAt s b).busyReads ∧
        ∀ x, memRead 0xFF (bankAt t b).image x =
          if x = 2 * (off / 2) then memRead 0xFF (bankAt s b).image x &&& v.extractLsb' 0 8
          else if x = 2 * (off / 2) + 1 then memRead 0xFF (bankAt s b).image x &&& v.extractLsb' 8 8
          else memRead 0xFF (bankAt s b).image x) ∧
    (s.cfg.flashSmEnabled = false → off < s.cfg.bankSize b →
      ∃ t, exec (.flPassW b off v) s = .next t ∧ t = { s with flash := t.flash, ret := some 0 } ∧
        t.flash.length = s.flash.length ∧ (∀ j, j ≠ b → bankAt t j = bankAt s j) ∧
        (bankAt t b).state = (bankAt s b).state ∧ (bankAt t b).busyReads = (bankAt s b).busyReads ∧
        ∀ x, memRead 0xFF (bankAt t b).image x =
          if x = off then v.extractLsb' 0 8
          else if x = off + 1 ∧ off + 1 < s.cfg.bankSize b then v.extractLsb' 8 8
          else memRead 0xFF (bankAt s b).image x)

/-- A cycle that no row expects, in any state (R327, R329, R326): one protocol diagnostic, the bank back in READ with its
image unchanged. The cycles each state expects are written out. -/
def Obligations.FlashBadCycle : Prop :=
  ∀ (s : State) (b off : Nat) (v : Word) (lit : Nat → Half → Prop), s.cfg.flashSmEnabled = true →
    (∀ l x, lit l x ↔ BitVec.ofNat 32 (off / 2) &&& s.cfg.flashCmdMask = BitVec.ofNat 32 l ∧ v.setWidth 16 = x) →
    (match (bankAt s b).state with
      | .read => ¬ lit 0x555 0xAA ∧ v.setWidth 16 ≠ (0x80 : Half) ∧ v.setWidth 16 ≠ (0xA0 : Half)
      | .unlock2 => ¬ lit 0x2AA 0x55
      | .unlocked => ¬ lit 0x555 0xA0 ∧ ¬ lit 0x555 0x80
      | .erase1 => ¬ lit 0x555 0xAA
      | .erase2 => ¬ lit 0x2AA 0x55
      | .erase3 => ¬ lit 0x555 0x10 ∧ v.setWidth 16 ≠ (0x30 : Half)
      | .unlockBypassErase => v.setWidth 16 ≠ (0x10 : Half) ∧ v.setWidth 16 ≠ (0x30 : Half)
      | .program => False
      | .unlockBypass => True
      | .unlockBypassReset => True
      | .blockEraseBusy => True) →
    exec (.flBadCycle b off v) s = .next
      { s with
        flash := s.flash.set b { bankAt s b with state := .read, busyReads := 0 }
        calls := .log .protocol (.flash b (bankAt s b).state (off / 2) (v.setWidth 16) s.env.pc) :: s.calls
        ret := some 0 }

/-- Reads of a bank (R311, R312, R328, R330): data, the bytes at the offset, little-endian, 0 beyond the bank, in every
state but BLOCK_ERASE_BUSY and with the state machine disabled; in BLOCK_ERASE_BUSY the alternating status, then 0x80
and READ. -/
def Obligations.FlashReads : Prop :=
  ∀ (s : State) (b off : Nat), b < s.flash.length →
    (∀ i, (i = .flRead b off ∧ s.cfg.flashSmEnabled = true ∧ (bankAt s b).state ≠ .blockEraseBusy) ∨
        (i = .flPassR b off ∧ s.cfg.flashSmEnabled = false) →
      ∃ x : Word, exec i s = .next { s with ret := some x } ∧
        ∀ k < 4, x.extractLsb' (8 * k) 8 =
          if off + k < s.cfg.bankSize b then memRead 0xFF (bankAt s b).image (off + k) else 0) ∧
    (s.cfg.flashSmEnabled = true → (bankAt s b).state = .blockEraseBusy →
      ((bankAt s b).busyReads.toNat < s.cfg.flashBusyReads →
        exec (.flBusyRead b off) s = .next
          { s with
            flash := s.flash.set b { bankAt s b with busyReads := (bankAt s b).busyReads + 1 }
            ret := some ((if (bankAt s b).busyReads.toNat % 2 = 0 then s.cfg.flashToggle0
              else s.cfg.flashToggle1).setWidth 32) }) ∧
      (s.cfg.flashBusyReads ≤ (bankAt s b).busyReads.toNat →
        exec (.flBusyRead b off) s = .next
          { s with
            flash := s.flash.set b { bankAt s b with state := .read, busyReads := 0 }
            ret := some 0x80 }))

/-- The program round trip (R331), from the accesses to the data and back: the unlock sequence, the program command and a
data word, each as a register write at its address, leave the bank in READ with the word at `old & new` and every other
byte as it was, and a read at the word's address returns `old & new` in bits 15:0 and the next word above it. It holds for
every word of the bank, 0x555 and 0x2AA too, and every FLASH_CMD_MASK that the two command offsets pass. -/
def Obligations.FlashProgramRoundTrip : Prop :=
  ∀ (s : State) (b w : Nat) (v : Word) (place : Nat → Word), s.cfg.wf = true → s.cfg.flashSmEnabled = true →
    0x555 &&& s.cfg.flashCmdMask = 0x555 → 0x2AA &&& s.cfg.flashCmdMask = 0x2AA → s.memOk → b < s.flash.length →
    s.flash.length = s.cfg.nBanks → (bankAt s b).state = .read → 0xAAB < s.cfg.bankSize b →
    2 * w + 1 < s.cfg.bankSize b → (∀ k, place k = s.cfg.bankBase b + BitVec.ofNat 32 (2 * k)) →
    (∀ off < s.cfg.bankSize b, ∃ h, selectHandler s.cfg (s.cfg.bankBase b + BitVec.ofNat 32 off) = some h ∧
      h.kind = .flash b) →
    ∃ t, writes [(place 0x555, 0xAA), (place 0x2AA, 0x55), (place 0x555, 0xA0), (place w, v)] s = some t ∧
      (bankAt t b).state = .read ∧ (∀ j, j ≠ b → bankAt t j = bankAt s j) ∧
      (∀ x, memRead 0xFF (bankAt t b).image x =
        if x = 2 * w then memRead 0xFF (bankAt s b).image x &&& v.extractLsb' 0 8
        else if x = 2 * w + 1 then memRead 0xFF (bankAt s b).image x &&& v.extractLsb' 8 8
        else memRead 0xFF (bankAt s b).image x) ∧
      ∃ r : Word, access (place w) false 0 t = .next { t with ret := some r } ∧
        r.extractLsb' 0 16 = (memRead 0xFF (bankAt s b).image (2 * w + 1) ++ memRead 0xFF (bankAt s b).image (2 * w)) &&&
          v.extractLsb' 0 16 ∧
        (2 * w + 3 < s.cfg.bankSize b → r.extractLsb' 16 16 =
          memRead 0xFF (bankAt s b).image (2 * w + 3) ++ memRead 0xFF (bankAt s b).image (2 * w + 2))

/-- The chip erase sequence (R332), from the accesses to the data: its six writes leave every byte of the bank 0xFF, so
every word 0xFFFF, the bank in READ, and no other bank changed. -/
def Obligations.FlashChipEraseSequence : Prop :=
  ∀ (s : State) (b : Nat) (place : Nat → Word), s.cfg.wf = true → s.cfg.flashSmEnabled = true →
    0x555 &&& s.cfg.flashCmdMask = 0x555 → 0x2AA &&& s.cfg.flashCmdMask = 0x2AA → s.memOk → b < s.flash.length →
    s.flash.length = s.cfg.nBanks → (bankAt s b).state = .read → 0xAAB < s.cfg.bankSize b →
    (∀ k, place k = s.cfg.bankBase b + BitVec.ofNat 32 (2 * k)) →
    (∀ off < s.cfg.bankSize b, ∃ h, selectHandler s.cfg (s.cfg.bankBase b + BitVec.ofNat 32 off) = some h ∧
      h.kind = .flash b) →
    ∃ t, writes [(place 0x555, 0xAA), (place 0x2AA, 0x55), (place 0x555, 0x80), (place 0x555, 0xAA), (place 0x2AA, 0x55),
        (place 0x555, 0x10)] s = some t ∧
      (bankAt t b).state = .read ∧ (∀ j, j ≠ b → bankAt t j = bankAt s j) ∧
      ∀ x, memRead 0xFF (bankAt t b).image x = 0xFF

/-! ## Display, ticker, host -/

/-- The display registers and the host's operations (R99, R350, R351, R352, R363, R374, R375): a palette write stores the
entry, a plane write the address, each marks every row for redrawing, and each reads back what was written; an invalidate
marks every row; a halt and a release set and clear the halt. Nothing else changes. -/
def Obligations.DisplayAndHost : Prop :=
  ∀ (i : Nat) (v : Word) (s : State),
    (∃ e : PaletteEntry, e.opacity ++ e.r ++ e.g ++ e.b = v ∧
      exec (.pal4W i v) s = .next
        { s with disp := { s.disp with pal4 := s.disp.pal4.set i e, invalidateAll := true }, ret := some 0 } ∧
      exec (.pal8W i v) s = .next
        { s with disp := { s.disp with pal8 := s.disp.pal8.set i e, invalidateAll := true }, ret := some 0 }) ∧
    (∀ e, s.disp.pal4[i]? = some e →
      exec (.pal4R i) s = .next { s with ret := some (e.opacity ++ e.r ++ e.g ++ e.b) }) ∧
    (∀ e, s.disp.pal8[i]? = some e →
      exec (.pal8R i) s = .next { s with ret := some (e.opacity ++ e.r ++ e.g ++ e.b) }) ∧
    exec (.planeAddrW .bmp v) s = .next
      { s with disp := { s.disp with bmpAddr := v, invalidateAll := true }, ret := some 0 } ∧
    exec (.planeAddrW .yuv v) s = .next
      { s with disp := { s.disp with yuvAddr := v, invalidateAll := true }, ret := some 0 } ∧
    exec (.planeAddrR .bmp) s = .next { s with ret := some s.disp.bmpAddr } ∧
    exec (.planeAddrR .yuv) s = .next { s with ret := some s.disp.yuvAddr } ∧
    exec .dispInvalidate s = .next { s with disp := { s.disp with invalidateAll := true } } ∧
    exec .hostHalt s = .next { s with agents := { s.agents with cpuHalted := true } } ∧
    exec .hostRelease s = .next { s with agents := { s.agents with cpuHalted := false } }

/-- A composite (R356 to R360): it records the planes as read and clears the redraw mark; with no dirty row it calls
nothing; otherwise it draws and reports exactly the rows from the first dirty one to the last, once. The first composite
calls `resize` before it. What guest memory holds and every register stay (R358). When a row is dirty and what its pixels
are is `Obligations.RowsAndPixels`; that a plane's row is one `MemRead` call is notes/assumptions/3.md. -/
def Obligations.Compose : Prop :=
  ∀ s : State, ∃ t, exec .dispCompose s = .next t ∧
    t = { s with disp := t.disp, surface := t.surface, calls := t.calls, mem := s.mem.after (planeReads s) } ∧
    t.disp = { s.disp with seenBmp := some (bmpRows s), seenYuv := yuvRows s, invalidateAll := false } ∧
    ((∀ y < s.cfg.bmpH, rowDirty s (bmpRows s) (yuvRows s) y = false) → s.disp.seenBmp ≠ none →
      t.surface = s.surface ∧ t.calls = s.calls) ∧
    (∀ first last, first ≤ last → last < s.cfg.bmpH → rowDirty s (bmpRows s) (yuvRows s) first = true →
      rowDirty s (bmpRows s) (yuvRows s) last = true →
      (∀ y < s.cfg.bmpH, rowDirty s (bmpRows s) (yuvRows s) y = true → first ≤ y ∧ y ≤ last) →
      (s.disp.seenBmp ≠ none → t.calls = .blitRows first last :: s.calls ∧
        t.surface.length = s.surface.length ∧
        ∀ y (h : y < s.surface.length), t.surface[y]? =
          some (if first ≤ y ∧ y ≤ last then outputRow s (bmpRows s) (yuvRows s) y else s.surface[y])) ∧
      (s.disp.seenBmp = none → first = 0 ∧ last + 1 = s.cfg.bmpH ∧
        t.calls = .blitRows first last :: .resize s.cfg.bmpW s.cfg.bmpH :: s.calls ∧
        t.surface = (List.range s.cfg.bmpH).map (outputRow s (bmpRows s) (yuvRows s))))

/-- When a row is dirty and what its pixels are, written out over the bytes the composite reads. A row is dirty as R357
says: after an invalidate, in the first composite, when a byte of its bitmap row or of the YUV row it depends on is not the
one seen, or when the YUV plane appears or goes. A pixel is R354's: a nonzero index selects the palette entry, opaque; index
0 is black without a YUV plane, else the conversion of R355 of the sample R353 names. The conversion's coefficients and the
packing are the spec's own presumption (notes/assumptions/23.md, notes/assumptions/17.md); a plane of width or height 0 has no
sample (notes/assumptions/28.md); what a read returns is notes/assumptions/3.md. -/
def Obligations.RowsAndPixels : Prop :=
  ∀ (s : State) (bmp yuv : Nat → Nat → Byte) (y ys : Nat), s.shapeOk → s.cfg.planesOk = true → y < s.cfg.bmpH →
    ys = y * s.cfg.yuvH / s.cfg.bmpH →
    (∀ k x, bmp k x = guestAnswer (s.mem.after k) (s.disp.bmpAddr.toNat + k * s.cfg.bmpPitch + x)) →
    (∀ k x, yuv k x = guestAnswer (s.mem.after (s.cfg.bmpH + k)) (s.disp.yuvAddr.toNat + k * s.cfg.yuvPitch + x)) →
    (rowDirty s (bmpRows s) (yuvRows s) y = true ↔
      s.disp.invalidateAll = true ∨ s.disp.seenBmp = none ∨
      (∃ seen x, s.disp.seenBmp = some seen ∧ x < s.cfg.bmpPitch ∧ (seen[y]?.bind (·[x]?)) ≠ some (bmp y x)) ∨
      ¬ (s.disp.yuvAddr ≠ 0 ↔ s.disp.seenYuv ≠ none) ∨
      (s.disp.yuvAddr ≠ 0 ∧ 0 < s.cfg.yuvH ∧ ∃ seen x, s.disp.seenYuv = some seen ∧ x < s.cfg.yuvPitch ∧
        (seen[ys]?.bind (·[x]?)) ≠ some (yuv ys x))) ∧
    (outputRow s (bmpRows s) (yuvRows s) y).length = s.cfg.bmpW ∧
    ∀ x < s.cfg.bmpW, ∃ pix : Word, (outputRow s (bmpRows s) (yuvRows s) y)[x]? = some pix ∧
      (∀ e, bmp y x ≠ 0 → s.disp.pal8[(bmp y x).toNat]? = some e → pix = (0 : Byte) ++ e.r ++ e.g ++ e.b) ∧
      (bmp y x = 0 → s.disp.yuvAddr = 0 → pix = 0) ∧
      (bmp y x = 0 → s.disp.yuvAddr ≠ 0 → 0 < s.cfg.yuvW → 0 < s.cfg.yuvH →
        ∀ (xs : Nat) (l d e : Int) (clip : Int → Int), (∀ i, clip i = max 0 (min 255 i)) →
          xs = x * s.cfg.yuvW / s.cfg.bmpW →
          l = (yuv ys (4 * (xs / 2) + if xs % 2 = 0 then s.cfg.yuvLayout.y0 else s.cfg.yuvLayout.y1)).toNat →
          d = (yuv ys (4 * (xs / 2) + s.cfg.yuvLayout.u)).toNat - 128 →
          e = (yuv ys (4 * (xs / 2) + s.cfg.yuvLayout.v)).toNat - 128 →
          (s.cfg.yuvMatrix = .bt601 → pix = BitVec.ofInt 32 (clip (l + 1436 * e / 1024) * 2 ^ 16 +
            clip (l - (352 * d + 731 * e) / 1024) * 2 ^ 8 + clip (l + 1815 * d / 1024))) ∧
          (s.cfg.yuvMatrix = .bt709 → pix = BitVec.ofInt 32 (clip (l + 1613 * e / 1024) * 2 ^ 16 +
            clip (l - (192 * d + 479 * e) / 1024) * 2 ^ 8 + clip (l + 1900 * d / 1024))))

/-- The gray property (R362): with a bitmap read as zeros and YUV samples read as (128, 128, 128), every composite that
redraws every row leaves a uniform gray frame, 0x00808080 at every pixel of every row, under either matrix and any palette:
after an invalidate, in the first composite, or with the first and the last row dirty. What a read returns is
notes/assumptions/3.md. -/
def Obligations.GrayFrame : Prop :=
  ∀ s : State, s.cfg.planesOk = true → 0 < s.cfg.bmpW → 0 < s.cfg.bmpH → 0 < s.cfg.yuvW → 0 < s.cfg.yuvH →
    s.disp.yuvAddr ≠ 0 → (s.disp.seenBmp ≠ none → s.surface.length = s.cfg.bmpH) →
    (s.disp.invalidateAll = true ∨ s.disp.seenBmp = none ∨
      (rowDirty s (bmpRows s) (yuvRows s) 0 = true ∧
        rowDirty s (bmpRows s) (yuvRows s) (s.cfg.bmpH - 1) = true)) →
    (∀ y < s.cfg.bmpH, ∀ x < s.cfg.bmpW,
      guestAnswer (s.mem.after y) (s.disp.bmpAddr.toNat + y * s.cfg.bmpPitch + x) = 0) →
    (∀ y < s.cfg.yuvH, ∀ x < 2 * s.cfg.yuvW,
      guestAnswer (s.mem.after (s.cfg.bmpH + y)) (s.disp.yuvAddr.toNat + y * s.cfg.yuvPitch + x) = 0x80) →
    ∃ t, exec .dispCompose s = .next t ∧
      t.surface = List.replicate s.cfg.bmpH (List.replicate s.cfg.bmpW 0x00808080) ∧
      t.calls = .blitRows 0 (s.cfg.bmpH - 1) ::
        (if s.disp.seenBmp = none then .resize s.cfg.bmpW s.cfg.bmpH :: s.calls else s.calls)

/-- A run of the ticker is its sub-steps in order (R288, R370, R371): the TIMERS step advances the timers, compares the
HPTimers against the new clock, walks the lines, then triggers HPT_IRQ once if some channel matched; the CF step is the
slice; the CF_IRQ step is `trigger(CF_DMA_IRQ, 0)`, after which the next run begins. That `tick` is one such step, and that
the sub-steps run as operations of their own, the last two from any phase, are the model's own
(notes/assumptions/6.md, notes/assumptions/10.md). -/
def Obligations.TickerRun : Prop :=
  ∀ s : State, s.agents.cpuHalted = false → s.fatal = none → s.cfg.hptIrq.toNat < s.cfg.maxIrq →
    s.cfg.cfDmaIrq.toNat < s.cfg.maxIrq →
    (s.agents.tickPhase = .timers →
      ∃ u w t, exec .tmrTick s = .next u ∧ execAll [.hptTick, .icTickWalk] u = some w ∧ exec .tick s = .next t ∧
        ((∀ n < u.hpt.length, ¬ ((hptAt u n).active = true ∧ (hptAt u n).ocv = u.clock)) →
          t = { w with agents := { w.agents with tickPhase := .cf } }) ∧
        ((∃ n < u.hpt.length, (hptAt u n).active = true ∧ (hptAt u n).ocv = u.clock) →
          ∃ x, exec (.icTrigger s.cfg.hptIrq 0) w = .next x ∧
            t = { x with agents := { x.agents with tickPhase := .cf } })) ∧
    (s.agents.tickPhase = .cf → exec .tick s = exec .cfDmaSlice s) ∧
    (s.agents.tickPhase = .cfIrq → exec .tick s = exec .cfDmaIrq s) ∧
    (∃ t, exec (.icTrigger s.cfg.cfDmaIrq 0) s = .next t ∧
      exec .cfDmaIrq s = .next { t with agents := { t.agents with tickPhase := .timers } })
end

