-- ==== Sys2Proof/Laws/State.lean ====
section
/-! SUPPORT. What each named update of the state leaves in each field: one lemma per field per update. -/

namespace Sys2Proof.Machine

/-! ### `State.withIc` -/

@[simp] theorem State.withIc_ic (s : State) x : (s.withIc x).ic = x := rfl
@[simp] theorem State.withIc_clock (s : State) x : (s.withIc x).clock = s.clock := rfl
@[simp] theorem State.withIc_tmr (s : State) x : (s.withIc x).tmr = s.tmr := rfl
@[simp] theorem State.withIc_hpt (s : State) x : (s.withIc x).hpt = s.hpt := rfl
@[simp] theorem State.withIc_dma (s : State) x : (s.withIc x).dma = s.dma := rfl
@[simp] theorem State.withIc_edmac (s : State) x : (s.withIc x).edmac = s.edmac := rfl
@[simp] theorem State.withIc_conn (s : State) x : (s.withIc x).conn = s.conn := rfl
@[simp] theorem State.withIc_sd (s : State) x : (s.withIc x).sd = s.sd := rfl
@[simp] theorem State.withIc_cf (s : State) x : (s.withIc x).cf = s.cf := rfl
@[simp] theorem State.withIc_flash (s : State) x : (s.withIc x).flash = s.flash := rfl
@[simp] theorem State.withIc_disp (s : State) x : (s.withIc x).disp = s.disp := rfl
@[simp] theorem State.withIc_lim (s : State) x : (s.withIc x).lim = s.lim := rfl
@[simp] theorem State.withIc_agents (s : State) x : (s.withIc x).agents = s.agents := rfl
@[simp] theorem State.withIc_fatal (s : State) x : (s.withIc x).fatal = s.fatal := rfl
@[simp] theorem State.withIc_cfg (s : State) x : (s.withIc x).cfg = s.cfg := rfl
@[simp] theorem State.withIc_mem (s : State) x : (s.withIc x).mem = s.mem := rfl
@[simp] theorem State.withIc_env (s : State) x : (s.withIc x).env = s.env := rfl
@[simp] theorem State.withIc_calls (s : State) x : (s.withIc x).calls = s.calls := rfl
@[simp] theorem State.withIc_surface (s : State) x : (s.withIc x).surface = s.surface := rfl
@[simp] theorem State.withIc_ret (s : State) x : (s.withIc x).ret = s.ret := rfl
@[simp] theorem State.withIc_schedule (s : State) x : (s.withIc x).schedule = s.schedule := rfl

/-! ### `State.withClock` -/

@[simp] theorem State.withClock_ic (s : State) x : (s.withClock x).ic = s.ic := rfl
@[simp] theorem State.withClock_clock (s : State) x : (s.withClock x).clock = x := rfl
@[simp] theorem State.withClock_tmr (s : State) x : (s.withClock x).tmr = s.tmr := rfl
@[simp] theorem State.withClock_hpt (s : State) x : (s.withClock x).hpt = s.hpt := rfl
@[simp] theorem State.withClock_dma (s : State) x : (s.withClock x).dma = s.dma := rfl
@[simp] theorem State.withClock_edmac (s : State) x : (s.withClock x).edmac = s.edmac := rfl
@[simp] theorem State.withClock_conn (s : State) x : (s.withClock x).conn = s.conn := rfl
@[simp] theorem State.withClock_sd (s : State) x : (s.withClock x).sd = s.sd := rfl
@[simp] theorem State.withClock_cf (s : State) x : (s.withClock x).cf = s.cf := rfl
@[simp] theorem State.withClock_flash (s : State) x : (s.withClock x).flash = s.flash := rfl
@[simp] theorem State.withClock_disp (s : State) x : (s.withClock x).disp = s.disp := rfl
@[simp] theorem State.withClock_lim (s : State) x : (s.withClock x).lim = s.lim := rfl
@[simp] theorem State.withClock_agents (s : State) x : (s.withClock x).agents = s.agents := rfl
@[simp] theorem State.withClock_fatal (s : State) x : (s.withClock x).fatal = s.fatal := rfl
@[simp] theorem State.withClock_cfg (s : State) x : (s.withClock x).cfg = s.cfg := rfl
@[simp] theorem State.withClock_mem (s : State) x : (s.withClock x).mem = s.mem := rfl
@[simp] theorem State.withClock_env (s : State) x : (s.withClock x).env = s.env := rfl
@[simp] theorem State.withClock_calls (s : State) x : (s.withClock x).calls = s.calls := rfl
@[simp] theorem State.withClock_surface (s : State) x : (s.withClock x).surface = s.surface := rfl
@[simp] theorem State.withClock_ret (s : State) x : (s.withClock x).ret = s.ret := rfl
@[simp] theorem State.withClock_schedule (s : State) x : (s.withClock x).schedule = s.schedule := rfl

/-! ### `State.withTmr` -/

@[simp] theorem State.withTmr_ic (s : State) x : (s.withTmr x).ic = s.ic := rfl
@[simp] theorem State.withTmr_clock (s : State) x : (s.withTmr x).clock = s.clock := rfl
@[simp] theorem State.withTmr_tmr (s : State) x : (s.withTmr x).tmr = x := rfl
@[simp] theorem State.withTmr_hpt (s : State) x : (s.withTmr x).hpt = s.hpt := rfl
@[simp] theorem State.withTmr_dma (s : State) x : (s.withTmr x).dma = s.dma := rfl
@[simp] theorem State.withTmr_edmac (s : State) x : (s.withTmr x).edmac = s.edmac := rfl
@[simp] theorem State.withTmr_conn (s : State) x : (s.withTmr x).conn = s.conn := rfl
@[simp] theorem State.withTmr_sd (s : State) x : (s.withTmr x).sd = s.sd := rfl
@[simp] theorem State.withTmr_cf (s : State) x : (s.withTmr x).cf = s.cf := rfl
@[simp] theorem State.withTmr_flash (s : State) x : (s.withTmr x).flash = s.flash := rfl
@[simp] theorem State.withTmr_disp (s : State) x : (s.withTmr x).disp = s.disp := rfl
@[simp] theorem State.withTmr_lim (s : State) x : (s.withTmr x).lim = s.lim := rfl
@[simp] theorem State.withTmr_agents (s : State) x : (s.withTmr x).agents = s.agents := rfl
@[simp] theorem State.withTmr_fatal (s : State) x : (s.withTmr x).fatal = s.fatal := rfl
@[simp] theorem State.withTmr_cfg (s : State) x : (s.withTmr x).cfg = s.cfg := rfl
@[simp] theorem State.withTmr_mem (s : State) x : (s.withTmr x).mem = s.mem := rfl
@[simp] theorem State.withTmr_env (s : State) x : (s.withTmr x).env = s.env := rfl
@[simp] theorem State.withTmr_calls (s : State) x : (s.withTmr x).calls = s.calls := rfl
@[simp] theorem State.withTmr_surface (s : State) x : (s.withTmr x).surface = s.surface := rfl
@[simp] theorem State.withTmr_ret (s : State) x : (s.withTmr x).ret = s.ret := rfl
@[simp] theorem State.withTmr_schedule (s : State) x : (s.withTmr x).schedule = s.schedule := rfl

/-! ### `State.withHpt` -/

@[simp] theorem State.withHpt_ic (s : State) x : (s.withHpt x).ic = s.ic := rfl
@[simp] theorem State.withHpt_clock (s : State) x : (s.withHpt x).clock = s.clock := rfl
@[simp] theorem State.withHpt_tmr (s : State) x : (s.withHpt x).tmr = s.tmr := rfl
@[simp] theorem State.withHpt_hpt (s : State) x : (s.withHpt x).hpt = x := rfl
@[simp] theorem State.withHpt_dma (s : State) x : (s.withHpt x).dma = s.dma := rfl
@[simp] theorem State.withHpt_edmac (s : State) x : (s.withHpt x).edmac = s.edmac := rfl
@[simp] theorem State.withHpt_conn (s : State) x : (s.withHpt x).conn = s.conn := rfl
@[simp] theorem State.withHpt_sd (s : State) x : (s.withHpt x).sd = s.sd := rfl
@[simp] theorem State.withHpt_cf (s : State) x : (s.withHpt x).cf = s.cf := rfl
@[simp] theorem State.withHpt_flash (s : State) x : (s.withHpt x).flash = s.flash := rfl
@[simp] theorem State.withHpt_disp (s : State) x : (s.withHpt x).disp = s.disp := rfl
@[simp] theorem State.withHpt_lim (s : State) x : (s.withHpt x).lim = s.lim := rfl
@[simp] theorem State.withHpt_agents (s : State) x : (s.withHpt x).agents = s.agents := rfl
@[simp] theorem State.withHpt_fatal (s : State) x : (s.withHpt x).fatal = s.fatal := rfl
@[simp] theorem State.withHpt_cfg (s : State) x : (s.withHpt x).cfg = s.cfg := rfl
@[simp] theorem State.withHpt_mem (s : State) x : (s.withHpt x).mem = s.mem := rfl
@[simp] theorem State.withHpt_env (s : State) x : (s.withHpt x).env = s.env := rfl
@[simp] theorem State.withHpt_calls (s : State) x : (s.withHpt x).calls = s.calls := rfl
@[simp] theorem State.withHpt_surface (s : State) x : (s.withHpt x).surface = s.surface := rfl
@[simp] theorem State.withHpt_ret (s : State) x : (s.withHpt x).ret = s.ret := rfl
@[simp] theorem State.withHpt_schedule (s : State) x : (s.withHpt x).schedule = s.schedule := rfl

/-! ### `State.withDma` -/

@[simp] theorem State.withDma_ic (s : State) x : (s.withDma x).ic = s.ic := rfl
@[simp] theorem State.withDma_clock (s : State) x : (s.withDma x).clock = s.clock := rfl
@[simp] theorem State.withDma_tmr (s : State) x : (s.withDma x).tmr = s.tmr := rfl
@[simp] theorem State.withDma_hpt (s : State) x : (s.withDma x).hpt = s.hpt := rfl
@[simp] theorem State.withDma_dma (s : State) x : (s.withDma x).dma = x := rfl
@[simp] theorem State.withDma_edmac (s : State) x : (s.withDma x).edmac = s.edmac := rfl
@[simp] theorem State.withDma_conn (s : State) x : (s.withDma x).conn = s.conn := rfl
@[simp] theorem State.withDma_sd (s : State) x : (s.withDma x).sd = s.sd := rfl
@[simp] theorem State.withDma_cf (s : State) x : (s.withDma x).cf = s.cf := rfl
@[simp] theorem State.withDma_flash (s : State) x : (s.withDma x).flash = s.flash := rfl
@[simp] theorem State.withDma_disp (s : State) x : (s.withDma x).disp = s.disp := rfl
@[simp] theorem State.withDma_lim (s : State) x : (s.withDma x).lim = s.lim := rfl
@[simp] theorem State.withDma_agents (s : State) x : (s.withDma x).agents = s.agents := rfl
@[simp] theorem State.withDma_fatal (s : State) x : (s.withDma x).fatal = s.fatal := rfl
@[simp] theorem State.withDma_cfg (s : State) x : (s.withDma x).cfg = s.cfg := rfl
@[simp] theorem State.withDma_mem (s : State) x : (s.withDma x).mem = s.mem := rfl
@[simp] theorem State.withDma_env (s : State) x : (s.withDma x).env = s.env := rfl
@[simp] theorem State.withDma_calls (s : State) x : (s.withDma x).calls = s.calls := rfl
@[simp] theorem State.withDma_surface (s : State) x : (s.withDma x).surface = s.surface := rfl
@[simp] theorem State.withDma_ret (s : State) x : (s.withDma x).ret = s.ret := rfl
@[simp] theorem State.withDma_schedule (s : State) x : (s.withDma x).schedule = s.schedule := rfl

/-! ### `State.withEdmac` -/

@[simp] theorem State.withEdmac_ic (s : State) x : (s.withEdmac x).ic = s.ic := rfl
@[simp] theorem State.withEdmac_clock (s : State) x : (s.withEdmac x).clock = s.clock := rfl
@[simp] theorem State.withEdmac_tmr (s : State) x : (s.withEdmac x).tmr = s.tmr := rfl
@[simp] theorem State.withEdmac_hpt (s : State) x : (s.withEdmac x).hpt = s.hpt := rfl
@[simp] theorem State.withEdmac_dma (s : State) x : (s.withEdmac x).dma = s.dma := rfl
@[simp] theorem State.withEdmac_edmac (s : State) x : (s.withEdmac x).edmac = x := rfl
@[simp] theorem State.withEdmac_conn (s : State) x : (s.withEdmac x).conn = s.conn := rfl
@[simp] theorem State.withEdmac_sd (s : State) x : (s.withEdmac x).sd = s.sd := rfl
@[simp] theorem State.withEdmac_cf (s : State) x : (s.withEdmac x).cf = s.cf := rfl
@[simp] theorem State.withEdmac_flash (s : State) x : (s.withEdmac x).flash = s.flash := rfl
@[simp] theorem State.withEdmac_disp (s : State) x : (s.withEdmac x).disp = s.disp := rfl
@[simp] theorem State.withEdmac_lim (s : State) x : (s.withEdmac x).lim = s.lim := rfl
@[simp] theorem State.withEdmac_agents (s : State) x : (s.withEdmac x).agents = s.agents := rfl
@[simp] theorem State.withEdmac_fatal (s : State) x : (s.withEdmac x).fatal = s.fatal := rfl
@[simp] theorem State.withEdmac_cfg (s : State) x : (s.withEdmac x).cfg = s.cfg := rfl
@[simp] theorem State.withEdmac_mem (s : State) x : (s.withEdmac x).mem = s.mem := rfl
@[simp] theorem State.withEdmac_env (s : State) x : (s.withEdmac x).env = s.env := rfl
@[simp] theorem State.withEdmac_calls (s : State) x : (s.withEdmac x).calls = s.calls := rfl
@[simp] theorem State.withEdmac_surface (s : State) x : (s.withEdmac x).surface = s.surface := rfl
@[simp] theorem State.withEdmac_ret (s : State) x : (s.withEdmac x).ret = s.ret := rfl
@[simp] theorem State.withEdmac_schedule (s : State) x : (s.withEdmac x).schedule = s.schedule := rfl

/-! ### `State.withConn` -/

@[simp] theorem State.withConn_ic (s : State) x : (s.withConn x).ic = s.ic := rfl
@[simp] theorem State.withConn_clock (s : State) x : (s.withConn x).clock = s.clock := rfl
@[simp] theorem State.withConn_tmr (s : State) x : (s.withConn x).tmr = s.tmr := rfl
@[simp] theorem State.withConn_hpt (s : State) x : (s.withConn x).hpt = s.hpt := rfl
@[simp] theorem State.withConn_dma (s : State) x : (s.withConn x).dma = s.dma := rfl
@[simp] theorem State.withConn_edmac (s : State) x : (s.withConn x).edmac = s.edmac := rfl
@[simp] theorem State.withConn_conn (s : State) x : (s.withConn x).conn = x := rfl
@[simp] theorem State.withConn_sd (s : State) x : (s.withConn x).sd = s.sd := rfl
@[simp] theorem State.withConn_cf (s : State) x : (s.withConn x).cf = s.cf := rfl
@[simp] theorem State.withConn_flash (s : State) x : (s.withConn x).flash = s.flash := rfl
@[simp] theorem State.withConn_disp (s : State) x : (s.withConn x).disp = s.disp := rfl
@[simp] theorem State.withConn_lim (s : State) x : (s.withConn x).lim = s.lim := rfl
@[simp] theorem State.withConn_agents (s : State) x : (s.withConn x).agents = s.agents := rfl
@[simp] theorem State.withConn_fatal (s : State) x : (s.withConn x).fatal = s.fatal := rfl
@[simp] theorem State.withConn_cfg (s : State) x : (s.withConn x).cfg = s.cfg := rfl
@[simp] theorem State.withConn_mem (s : State) x : (s.withConn x).mem = s.mem := rfl
@[simp] theorem State.withConn_env (s : State) x : (s.withConn x).env = s.env := rfl
@[simp] theorem State.withConn_calls (s : State) x : (s.withConn x).calls = s.calls := rfl
@[simp] theorem State.withConn_surface (s : State) x : (s.withConn x).surface = s.surface := rfl
@[simp] theorem State.withConn_ret (s : State) x : (s.withConn x).ret = s.ret := rfl
@[simp] theorem State.withConn_schedule (s : State) x : (s.withConn x).schedule = s.schedule := rfl

/-! ### `State.withSd` -/

@[simp] theorem State.withSd_ic (s : State) x : (s.withSd x).ic = s.ic := rfl
@[simp] theorem State.withSd_clock (s : State) x : (s.withSd x).clock = s.clock := rfl
@[simp] theorem State.withSd_tmr (s : State) x : (s.withSd x).tmr = s.tmr := rfl
@[simp] theorem State.withSd_hpt (s : State) x : (s.withSd x).hpt = s.hpt := rfl
@[simp] theorem State.withSd_dma (s : State) x : (s.withSd x).dma = s.dma := rfl
@[simp] theorem State.withSd_edmac (s : State) x : (s.withSd x).edmac = s.edmac := rfl
@[simp] theorem State.withSd_conn (s : State) x : (s.withSd x).conn = s.conn := rfl
@[simp] theorem State.withSd_sd (s : State) x : (s.withSd x).sd = x := rfl
@[simp] theorem State.withSd_cf (s : State) x : (s.withSd x).cf = s.cf := rfl
@[simp] theorem State.withSd_flash (s : State) x : (s.withSd x).flash = s.flash := rfl
@[simp] theorem State.withSd_disp (s : State) x : (s.withSd x).disp = s.disp := rfl
@[simp] theorem State.withSd_lim (s : State) x : (s.withSd x).lim = s.lim := rfl
@[simp] theorem State.withSd_agents (s : State) x : (s.withSd x).agents = s.agents := rfl
@[simp] theorem State.withSd_fatal (s : State) x : (s.withSd x).fatal = s.fatal := rfl
@[simp] theorem State.withSd_cfg (s : State) x : (s.withSd x).cfg = s.cfg := rfl
@[simp] theorem State.withSd_mem (s : State) x : (s.withSd x).mem = s.mem := rfl
@[simp] theorem State.withSd_env (s : State) x : (s.withSd x).env = s.env := rfl
@[simp] theorem State.withSd_calls (s : State) x : (s.withSd x).calls = s.calls := rfl
@[simp] theorem State.withSd_surface (s : State) x : (s.withSd x).surface = s.surface := rfl
@[simp] theorem State.withSd_ret (s : State) x : (s.withSd x).ret = s.ret := rfl
@[simp] theorem State.withSd_schedule (s : State) x : (s.withSd x).schedule = s.schedule := rfl

/-! ### `State.withCf` -/

@[simp] theorem State.withCf_ic (s : State) x : (s.withCf x).ic = s.ic := rfl
@[simp] theorem State.withCf_clock (s : State) x : (s.withCf x).clock = s.clock := rfl
@[simp] theorem State.withCf_tmr (s : State) x : (s.withCf x).tmr = s.tmr := rfl
@[simp] theorem State.withCf_hpt (s : State) x : (s.withCf x).hpt = s.hpt := rfl
@[simp] theorem State.withCf_dma (s : State) x : (s.withCf x).dma = s.dma := rfl
@[simp] theorem State.withCf_edmac (s : State) x : (s.withCf x).edmac = s.edmac := rfl
@[simp] theorem State.withCf_conn (s : State) x : (s.withCf x).conn = s.conn := rfl
@[simp] theorem State.withCf_sd (s : State) x : (s.withCf x).sd = s.sd := rfl
@[simp] theorem State.withCf_cf (s : State) x : (s.withCf x).cf = x := rfl
@[simp] theorem State.withCf_flash (s : State) x : (s.withCf x).flash = s.flash := rfl
@[simp] theorem State.withCf_disp (s : State) x : (s.withCf x).disp = s.disp := rfl
@[simp] theorem State.withCf_lim (s : State) x : (s.withCf x).lim = s.lim := rfl
@[simp] theorem State.withCf_agents (s : State) x : (s.withCf x).agents = s.agents := rfl
@[simp] theorem State.withCf_fatal (s : State) x : (s.withCf x).fatal = s.fatal := rfl
@[simp] theorem State.withCf_cfg (s : State) x : (s.withCf x).cfg = s.cfg := rfl
@[simp] theorem State.withCf_mem (s : State) x : (s.withCf x).mem = s.mem := rfl
@[simp] theorem State.withCf_env (s : State) x : (s.withCf x).env = s.env := rfl
@[simp] theorem State.withCf_calls (s : State) x : (s.withCf x).calls = s.calls := rfl
@[simp] theorem State.withCf_surface (s : State) x : (s.withCf x).surface = s.surface := rfl
@[simp] theorem State.withCf_ret (s : State) x : (s.withCf x).ret = s.ret := rfl
@[simp] theorem State.withCf_schedule (s : State) x : (s.withCf x).schedule = s.schedule := rfl

/-! ### `State.withFlash` -/

@[simp] theorem State.withFlash_ic (s : State) x : (s.withFlash x).ic = s.ic := rfl
@[simp] theorem State.withFlash_clock (s : State) x : (s.withFlash x).clock = s.clock := rfl
@[simp] theorem State.withFlash_tmr (s : State) x : (s.withFlash x).tmr = s.tmr := rfl
@[simp] theorem State.withFlash_hpt (s : State) x : (s.withFlash x).hpt = s.hpt := rfl
@[simp] theorem State.withFlash_dma (s : State) x : (s.withFlash x).dma = s.dma := rfl
@[simp] theorem State.withFlash_edmac (s : State) x : (s.withFlash x).edmac = s.edmac := rfl
@[simp] theorem State.withFlash_conn (s : State) x : (s.withFlash x).conn = s.conn := rfl
@[simp] theorem State.withFlash_sd (s : State) x : (s.withFlash x).sd = s.sd := rfl
@[simp] theorem State.withFlash_cf (s : State) x : (s.withFlash x).cf = s.cf := rfl
@[simp] theorem State.withFlash_flash (s : State) x : (s.withFlash x).flash = x := rfl
@[simp] theorem State.withFlash_disp (s : State) x : (s.withFlash x).disp = s.disp := rfl
@[simp] theorem State.withFlash_lim (s : State) x : (s.withFlash x).lim = s.lim := rfl
@[simp] theorem State.withFlash_agents (s : State) x : (s.withFlash x).agents = s.agents := rfl
@[simp] theorem State.withFlash_fatal (s : State) x : (s.withFlash x).fatal = s.fatal := rfl
@[simp] theorem State.withFlash_cfg (s : State) x : (s.withFlash x).cfg = s.cfg := rfl
@[simp] theorem State.withFlash_mem (s : State) x : (s.withFlash x).mem = s.mem := rfl
@[simp] theorem State.withFlash_env (s : State) x : (s.withFlash x).env = s.env := rfl
@[simp] theorem State.withFlash_calls (s : State) x : (s.withFlash x).calls = s.calls := rfl
@[simp] theorem State.withFlash_surface (s : State) x : (s.withFlash x).surface = s.surface := rfl
@[simp] theorem State.withFlash_ret (s : State) x : (s.withFlash x).ret = s.ret := rfl
@[simp] theorem State.withFlash_schedule (s : State) x : (s.withFlash x).schedule = s.schedule := rfl

/-! ### `State.withDisp` -/

@[simp] theorem State.withDisp_ic (s : State) x : (s.withDisp x).ic = s.ic := rfl
@[simp] theorem State.withDisp_clock (s : State) x : (s.withDisp x).clock = s.clock := rfl
@[simp] theorem State.withDisp_tmr (s : State) x : (s.withDisp x).tmr = s.tmr := rfl
@[simp] theorem State.withDisp_hpt (s : State) x : (s.withDisp x).hpt = s.hpt := rfl
@[simp] theorem State.withDisp_dma (s : State) x : (s.withDisp x).dma = s.dma := rfl
@[simp] theorem State.withDisp_edmac (s : State) x : (s.withDisp x).edmac = s.edmac := rfl
@[simp] theorem State.withDisp_conn (s : State) x : (s.withDisp x).conn = s.conn := rfl
@[simp] theorem State.withDisp_sd (s : State) x : (s.withDisp x).sd = s.sd := rfl
@[simp] theorem State.withDisp_cf (s : State) x : (s.withDisp x).cf = s.cf := rfl
@[simp] theorem State.withDisp_flash (s : State) x : (s.withDisp x).flash = s.flash := rfl
@[simp] theorem State.withDisp_disp (s : State) x : (s.withDisp x).disp = x := rfl
@[simp] theorem State.withDisp_lim (s : State) x : (s.withDisp x).lim = s.lim := rfl
@[simp] theorem State.withDisp_agents (s : State) x : (s.withDisp x).agents = s.agents := rfl
@[simp] theorem State.withDisp_fatal (s : State) x : (s.withDisp x).fatal = s.fatal := rfl
@[simp] theorem State.withDisp_cfg (s : State) x : (s.withDisp x).cfg = s.cfg := rfl
@[simp] theorem State.withDisp_mem (s : State) x : (s.withDisp x).mem = s.mem := rfl
@[simp] theorem State.withDisp_env (s : State) x : (s.withDisp x).env = s.env := rfl
@[simp] theorem State.withDisp_calls (s : State) x : (s.withDisp x).calls = s.calls := rfl
@[simp] theorem State.withDisp_surface (s : State) x : (s.withDisp x).surface = s.surface := rfl
@[simp] theorem State.withDisp_ret (s : State) x : (s.withDisp x).ret = s.ret := rfl
@[simp] theorem State.withDisp_schedule (s : State) x : (s.withDisp x).schedule = s.schedule := rfl

/-! ### `State.withLim` -/

@[simp] theorem State.withLim_ic (s : State) x : (s.withLim x).ic = s.ic := rfl
@[simp] theorem State.withLim_clock (s : State) x : (s.withLim x).clock = s.clock := rfl
@[simp] theorem State.withLim_tmr (s : State) x : (s.withLim x).tmr = s.tmr := rfl
@[simp] theorem State.withLim_hpt (s : State) x : (s.withLim x).hpt = s.hpt := rfl
@[simp] theorem State.withLim_dma (s : State) x : (s.withLim x).dma = s.dma := rfl
@[simp] theorem State.withLim_edmac (s : State) x : (s.withLim x).edmac = s.edmac := rfl
@[simp] theorem State.withLim_conn (s : State) x : (s.withLim x).conn = s.conn := rfl
@[simp] theorem State.withLim_sd (s : State) x : (s.withLim x).sd = s.sd := rfl
@[simp] theorem State.withLim_cf (s : State) x : (s.withLim x).cf = s.cf := rfl
@[simp] theorem State.withLim_flash (s : State) x : (s.withLim x).flash = s.flash := rfl
@[simp] theorem State.withLim_disp (s : State) x : (s.withLim x).disp = s.disp := rfl
@[simp] theorem State.withLim_lim (s : State) x : (s.withLim x).lim = x := rfl
@[simp] theorem State.withLim_agents (s : State) x : (s.withLim x).agents = s.agents := rfl
@[simp] theorem State.withLim_fatal (s : State) x : (s.withLim x).fatal = s.fatal := rfl
@[simp] theorem State.withLim_cfg (s : State) x : (s.withLim x).cfg = s.cfg := rfl
@[simp] theorem State.withLim_mem (s : State) x : (s.withLim x).mem = s.mem := rfl
@[simp] theorem State.withLim_env (s : State) x : (s.withLim x).env = s.env := rfl
@[simp] theorem State.withLim_calls (s : State) x : (s.withLim x).calls = s.calls := rfl
@[simp] theorem State.withLim_surface (s : State) x : (s.withLim x).surface = s.surface := rfl
@[simp] theorem State.withLim_ret (s : State) x : (s.withLim x).ret = s.ret := rfl
@[simp] theorem State.withLim_schedule (s : State) x : (s.withLim x).schedule = s.schedule := rfl

/-! ### `State.withAgents` -/

@[simp] theorem State.withAgents_ic (s : State) x : (s.withAgents x).ic = s.ic := rfl
@[simp] theorem State.withAgents_clock (s : State) x : (s.withAgents x).clock = s.clock := rfl
@[simp] theorem State.withAgents_tmr (s : State) x : (s.withAgents x).tmr = s.tmr := rfl
@[simp] theorem State.withAgents_hpt (s : State) x : (s.withAgents x).hpt = s.hpt := rfl
@[simp] theorem State.withAgents_dma (s : State) x : (s.withAgents x).dma = s.dma := rfl
@[simp] theorem State.withAgents_edmac (s : State) x : (s.withAgents x).edmac = s.edmac := rfl
@[simp] theorem State.withAgents_conn (s : State) x : (s.withAgents x).conn = s.conn := rfl
@[simp] theorem State.withAgents_sd (s : State) x : (s.withAgents x).sd = s.sd := rfl
@[simp] theorem State.withAgents_cf (s : State) x : (s.withAgents x).cf = s.cf := rfl
@[simp] theorem State.withAgents_flash (s : State) x : (s.withAgents x).flash = s.flash := rfl
@[simp] theorem State.withAgents_disp (s : State) x : (s.withAgents x).disp = s.disp := rfl
@[simp] theorem State.withAgents_lim (s : State) x : (s.withAgents x).lim = s.lim := rfl
@[simp] theorem State.withAgents_agents (s : State) x : (s.withAgents x).agents = x := rfl
@[simp] theorem State.withAgents_fatal (s : State) x : (s.withAgents x).fatal = s.fatal := rfl
@[simp] theorem State.withAgents_cfg (s : State) x : (s.withAgents x).cfg = s.cfg := rfl
@[simp] theorem State.withAgents_mem (s : State) x : (s.withAgents x).mem = s.mem := rfl
@[simp] theorem State.withAgents_env (s : State) x : (s.withAgents x).env = s.env := rfl
@[simp] theorem State.withAgents_calls (s : State) x : (s.withAgents x).calls = s.calls := rfl
@[simp] theorem State.withAgents_surface (s : State) x : (s.withAgents x).surface = s.surface := rfl
@[simp] theorem State.withAgents_ret (s : State) x : (s.withAgents x).ret = s.ret := rfl
@[simp] theorem State.withAgents_schedule (s : State) x : (s.withAgents x).schedule = s.schedule := rfl

/-! ### `State.withFatal` -/

@[simp] theorem State.withFatal_ic (s : State) x : (s.withFatal x).ic = s.ic := rfl
@[simp] theorem State.withFatal_clock (s : State) x : (s.withFatal x).clock = s.clock := rfl
@[simp] theorem State.withFatal_tmr (s : State) x : (s.withFatal x).tmr = s.tmr := rfl
@[simp] theorem State.withFatal_hpt (s : State) x : (s.withFatal x).hpt = s.hpt := rfl
@[simp] theorem State.withFatal_dma (s : State) x : (s.withFatal x).dma = s.dma := rfl
@[simp] theorem State.withFatal_edmac (s : State) x : (s.withFatal x).edmac = s.edmac := rfl
@[simp] theorem State.withFatal_conn (s : State) x : (s.withFatal x).conn = s.conn := rfl
@[simp] theorem State.withFatal_sd (s : State) x : (s.withFatal x).sd = s.sd := rfl
@[simp] theorem State.withFatal_cf (s : State) x : (s.withFatal x).cf = s.cf := rfl
@[simp] theorem State.withFatal_flash (s : State) x : (s.withFatal x).flash = s.flash := rfl
@[simp] theorem State.withFatal_disp (s : State) x : (s.withFatal x).disp = s.disp := rfl
@[simp] theorem State.withFatal_lim (s : State) x : (s.withFatal x).lim = s.lim := rfl
@[simp] theorem State.withFatal_agents (s : State) x : (s.withFatal x).agents = s.agents := rfl
@[simp] theorem State.withFatal_fatal (s : State) x : (s.withFatal x).fatal = x := rfl
@[simp] theorem State.withFatal_cfg (s : State) x : (s.withFatal x).cfg = s.cfg := rfl
@[simp] theorem State.withFatal_mem (s : State) x : (s.withFatal x).mem = s.mem := rfl
@[simp] theorem State.withFatal_env (s : State) x : (s.withFatal x).env = s.env := rfl
@[simp] theorem State.withFatal_calls (s : State) x : (s.withFatal x).calls = s.calls := rfl
@[simp] theorem State.withFatal_surface (s : State) x : (s.withFatal x).surface = s.surface := rfl
@[simp] theorem State.withFatal_ret (s : State) x : (s.withFatal x).ret = s.ret := rfl
@[simp] theorem State.withFatal_schedule (s : State) x : (s.withFatal x).schedule = s.schedule := rfl

/-! ### `State.withMem` -/

@[simp] theorem State.withMem_ic (s : State) x : (s.withMem x).ic = s.ic := rfl
@[simp] theorem State.withMem_clock (s : State) x : (s.withMem x).clock = s.clock := rfl
@[simp] theorem State.withMem_tmr (s : State) x : (s.withMem x).tmr = s.tmr := rfl
@[simp] theorem State.withMem_hpt (s : State) x : (s.withMem x).hpt = s.hpt := rfl
@[simp] theorem State.withMem_dma (s : State) x : (s.withMem x).dma = s.dma := rfl
@[simp] theorem State.withMem_edmac (s : State) x : (s.withMem x).edmac = s.edmac := rfl
@[simp] theorem State.withMem_conn (s : State) x : (s.withMem x).conn = s.conn := rfl
@[simp] theorem State.withMem_sd (s : State) x : (s.withMem x).sd = s.sd := rfl
@[simp] theorem State.withMem_cf (s : State) x : (s.withMem x).cf = s.cf := rfl
@[simp] theorem State.withMem_flash (s : State) x : (s.withMem x).flash = s.flash := rfl
@[simp] theorem State.withMem_disp (s : State) x : (s.withMem x).disp = s.disp := rfl
@[simp] theorem State.withMem_lim (s : State) x : (s.withMem x).lim = s.lim := rfl
@[simp] theorem State.withMem_agents (s : State) x : (s.withMem x).agents = s.agents := rfl
@[simp] theorem State.withMem_fatal (s : State) x : (s.withMem x).fatal = s.fatal := rfl
@[simp] theorem State.withMem_cfg (s : State) x : (s.withMem x).cfg = s.cfg := rfl
@[simp] theorem State.withMem_mem (s : State) x : (s.withMem x).mem = x := rfl
@[simp] theorem State.withMem_env (s : State) x : (s.withMem x).env = s.env := rfl
@[simp] theorem State.withMem_calls (s : State) x : (s.withMem x).calls = s.calls := rfl
@[simp] theorem State.withMem_surface (s : State) x : (s.withMem x).surface = s.surface := rfl
@[simp] theorem State.withMem_ret (s : State) x : (s.withMem x).ret = s.ret := rfl
@[simp] theorem State.withMem_schedule (s : State) x : (s.withMem x).schedule = s.schedule := rfl

/-! ### `State.withEnv` -/

@[simp] theorem State.withEnv_ic (s : State) x : (s.withEnv x).ic = s.ic := rfl
@[simp] theorem State.withEnv_clock (s : State) x : (s.withEnv x).clock = s.clock := rfl
@[simp] theorem State.withEnv_tmr (s : State) x : (s.withEnv x).tmr = s.tmr := rfl
@[simp] theorem State.withEnv_hpt (s : State) x : (s.withEnv x).hpt = s.hpt := rfl
@[simp] theorem State.withEnv_dma (s : State) x : (s.withEnv x).dma = s.dma := rfl
@[simp] theorem State.withEnv_edmac (s : State) x : (s.withEnv x).edmac = s.edmac := rfl
@[simp] theorem State.withEnv_conn (s : State) x : (s.withEnv x).conn = s.conn := rfl
@[simp] theorem State.withEnv_sd (s : State) x : (s.withEnv x).sd = s.sd := rfl
@[simp] theorem State.withEnv_cf (s : State) x : (s.withEnv x).cf = s.cf := rfl
@[simp] theorem State.withEnv_flash (s : State) x : (s.withEnv x).flash = s.flash := rfl
@[simp] theorem State.withEnv_disp (s : State) x : (s.withEnv x).disp = s.disp := rfl
@[simp] theorem State.withEnv_lim (s : State) x : (s.withEnv x).lim = s.lim := rfl
@[simp] theorem State.withEnv_agents (s : State) x : (s.withEnv x).agents = s.agents := rfl
@[simp] theorem State.withEnv_fatal (s : State) x : (s.withEnv x).fatal = s.fatal := rfl
@[simp] theorem State.withEnv_cfg (s : State) x : (s.withEnv x).cfg = s.cfg := rfl
@[simp] theorem State.withEnv_mem (s : State) x : (s.withEnv x).mem = s.mem := rfl
@[simp] theorem State.withEnv_env (s : State) x : (s.withEnv x).env = x := rfl
@[simp] theorem State.withEnv_calls (s : State) x : (s.withEnv x).calls = s.calls := rfl
@[simp] theorem State.withEnv_surface (s : State) x : (s.withEnv x).surface = s.surface := rfl
@[simp] theorem State.withEnv_ret (s : State) x : (s.withEnv x).ret = s.ret := rfl
@[simp] theorem State.withEnv_schedule (s : State) x : (s.withEnv x).schedule = s.schedule := rfl

/-! ### `State.withCalls` -/

@[simp] theorem State.withCalls_ic (s : State) x : (s.withCalls x).ic = s.ic := rfl
@[simp] theorem State.withCalls_clock (s : State) x : (s.withCalls x).clock = s.clock := rfl
@[simp] theorem State.withCalls_tmr (s : State) x : (s.withCalls x).tmr = s.tmr := rfl
@[simp] theorem State.withCalls_hpt (s : State) x : (s.withCalls x).hpt = s.hpt := rfl
@[simp] theorem State.withCalls_dma (s : State) x : (s.withCalls x).dma = s.dma := rfl
@[simp] theorem State.withCalls_edmac (s : State) x : (s.withCalls x).edmac = s.edmac := rfl
@[simp] theorem State.withCalls_conn (s : State) x : (s.withCalls x).conn = s.conn := rfl
@[simp] theorem State.withCalls_sd (s : State) x : (s.withCalls x).sd = s.sd := rfl
@[simp] theorem State.withCalls_cf (s : State) x : (s.withCalls x).cf = s.cf := rfl
@[simp] theorem State.withCalls_flash (s : State) x : (s.withCalls x).flash = s.flash := rfl
@[simp] theorem State.withCalls_disp (s : State) x : (s.withCalls x).disp = s.disp := rfl
@[simp] theorem State.withCalls_lim (s : State) x : (s.withCalls x).lim = s.lim := rfl
@[simp] theorem State.withCalls_agents (s : State) x : (s.withCalls x).agents = s.agents := rfl
@[simp] theorem State.withCalls_fatal (s : State) x : (s.withCalls x).fatal = s.fatal := rfl
@[simp] theorem State.withCalls_cfg (s : State) x : (s.withCalls x).cfg = s.cfg := rfl
@[simp] theorem State.withCalls_mem (s : State) x : (s.withCalls x).mem = s.mem := rfl
@[simp] theorem State.withCalls_env (s : State) x : (s.withCalls x).env = s.env := rfl
@[simp] theorem State.withCalls_calls (s : State) x : (s.withCalls x).calls = x := rfl
@[simp] theorem State.withCalls_surface (s : State) x : (s.withCalls x).surface = s.surface := rfl
@[simp] theorem State.withCalls_ret (s : State) x : (s.withCalls x).ret = s.ret := rfl
@[simp] theorem State.withCalls_schedule (s : State) x : (s.withCalls x).schedule = s.schedule := rfl

/-! ### `State.withSurface` -/

@[simp] theorem State.withSurface_ic (s : State) x : (s.withSurface x).ic = s.ic := rfl
@[simp] theorem State.withSurface_clock (s : State) x : (s.withSurface x).clock = s.clock := rfl
@[simp] theorem State.withSurface_tmr (s : State) x : (s.withSurface x).tmr = s.tmr := rfl
@[simp] theorem State.withSurface_hpt (s : State) x : (s.withSurface x).hpt = s.hpt := rfl
@[simp] theorem State.withSurface_dma (s : State) x : (s.withSurface x).dma = s.dma := rfl
@[simp] theorem State.withSurface_edmac (s : State) x : (s.withSurface x).edmac = s.edmac := rfl
@[simp] theorem State.withSurface_conn (s : State) x : (s.withSurface x).conn = s.conn := rfl
@[simp] theorem State.withSurface_sd (s : State) x : (s.withSurface x).sd = s.sd := rfl
@[simp] theorem State.withSurface_cf (s : State) x : (s.withSurface x).cf = s.cf := rfl
@[simp] theorem State.withSurface_flash (s : State) x : (s.withSurface x).flash = s.flash := rfl
@[simp] theorem State.withSurface_disp (s : State) x : (s.withSurface x).disp = s.disp := rfl
@[simp] theorem State.withSurface_lim (s : State) x : (s.withSurface x).lim = s.lim := rfl
@[simp] theorem State.withSurface_agents (s : State) x : (s.withSurface x).agents = s.agents := rfl
@[simp] theorem State.withSurface_fatal (s : State) x : (s.withSurface x).fatal = s.fatal := rfl
@[simp] theorem State.withSurface_cfg (s : State) x : (s.withSurface x).cfg = s.cfg := rfl
@[simp] theorem State.withSurface_mem (s : State) x : (s.withSurface x).mem = s.mem := rfl
@[simp] theorem State.withSurface_env (s : State) x : (s.withSurface x).env = s.env := rfl
@[simp] theorem State.withSurface_calls (s : State) x : (s.withSurface x).calls = s.calls := rfl
@[simp] theorem State.withSurface_surface (s : State) x : (s.withSurface x).surface = x := rfl
@[simp] theorem State.withSurface_ret (s : State) x : (s.withSurface x).ret = s.ret := rfl
@[simp] theorem State.withSurface_schedule (s : State) x : (s.withSurface x).schedule = s.schedule := rfl

/-! ### `State.withRet` -/

@[simp] theorem State.withRet_ic (s : State) x : (s.withRet x).ic = s.ic := rfl
@[simp] theorem State.withRet_clock (s : State) x : (s.withRet x).clock = s.clock := rfl
@[simp] theorem State.withRet_tmr (s : State) x : (s.withRet x).tmr = s.tmr := rfl
@[simp] theorem State.withRet_hpt (s : State) x : (s.withRet x).hpt = s.hpt := rfl
@[simp] theorem State.withRet_dma (s : State) x : (s.withRet x).dma = s.dma := rfl
@[simp] theorem State.withRet_edmac (s : State) x : (s.withRet x).edmac = s.edmac := rfl
@[simp] theorem State.withRet_conn (s : State) x : (s.withRet x).conn = s.conn := rfl
@[simp] theorem State.withRet_sd (s : State) x : (s.withRet x).sd = s.sd := rfl
@[simp] theorem State.withRet_cf (s : State) x : (s.withRet x).cf = s.cf := rfl
@[simp] theorem State.withRet_flash (s : State) x : (s.withRet x).flash = s.flash := rfl
@[simp] theorem State.withRet_disp (s : State) x : (s.withRet x).disp = s.disp := rfl
@[simp] theorem State.withRet_lim (s : State) x : (s.withRet x).lim = s.lim := rfl
@[simp] theorem State.withRet_agents (s : State) x : (s.withRet x).agents = s.agents := rfl
@[simp] theorem State.withRet_fatal (s : State) x : (s.withRet x).fatal = s.fatal := rfl
@[simp] theorem State.withRet_cfg (s : State) x : (s.withRet x).cfg = s.cfg := rfl
@[simp] theorem State.withRet_mem (s : State) x : (s.withRet x).mem = s.mem := rfl
@[simp] theorem State.withRet_env (s : State) x : (s.withRet x).env = s.env := rfl
@[simp] theorem State.withRet_calls (s : State) x : (s.withRet x).calls = s.calls := rfl
@[simp] theorem State.withRet_surface (s : State) x : (s.withRet x).surface = s.surface := rfl
@[simp] theorem State.withRet_ret (s : State) x : (s.withRet x).ret = x := rfl
@[simp] theorem State.withRet_schedule (s : State) x : (s.withRet x).schedule = s.schedule := rfl

/-! ### `State.withSchedule` -/

@[simp] theorem State.withSchedule_ic (s : State) x : (s.withSchedule x).ic = s.ic := rfl
@[simp] theorem State.withSchedule_clock (s : State) x : (s.withSchedule x).clock = s.clock := rfl
@[simp] theorem State.withSchedule_tmr (s : State) x : (s.withSchedule x).tmr = s.tmr := rfl
@[simp] theorem State.withSchedule_hpt (s : State) x : (s.withSchedule x).hpt = s.hpt := rfl
@[simp] theorem State.withSchedule_dma (s : State) x : (s.withSchedule x).dma = s.dma := rfl
@[simp] theorem State.withSchedule_edmac (s : State) x : (s.withSchedule x).edmac = s.edmac := rfl
@[simp] theorem State.withSchedule_conn (s : State) x : (s.withSchedule x).conn = s.conn := rfl
@[simp] theorem State.withSchedule_sd (s : State) x : (s.withSchedule x).sd = s.sd := rfl
@[simp] theorem State.withSchedule_cf (s : State) x : (s.withSchedule x).cf = s.cf := rfl
@[simp] theorem State.withSchedule_flash (s : State) x : (s.withSchedule x).flash = s.flash := rfl
@[simp] theorem State.withSchedule_disp (s : State) x : (s.withSchedule x).disp = s.disp := rfl
@[simp] theorem State.withSchedule_lim (s : State) x : (s.withSchedule x).lim = s.lim := rfl
@[simp] theorem State.withSchedule_agents (s : State) x : (s.withSchedule x).agents = s.agents := rfl
@[simp] theorem State.withSchedule_fatal (s : State) x : (s.withSchedule x).fatal = s.fatal := rfl
@[simp] theorem State.withSchedule_cfg (s : State) x : (s.withSchedule x).cfg = s.cfg := rfl
@[simp] theorem State.withSchedule_mem (s : State) x : (s.withSchedule x).mem = s.mem := rfl
@[simp] theorem State.withSchedule_env (s : State) x : (s.withSchedule x).env = s.env := rfl
@[simp] theorem State.withSchedule_calls (s : State) x : (s.withSchedule x).calls = s.calls := rfl
@[simp] theorem State.withSchedule_surface (s : State) x : (s.withSchedule x).surface = s.surface := rfl
@[simp] theorem State.withSchedule_ret (s : State) x : (s.withSchedule x).ret = s.ret := rfl
@[simp] theorem State.withSchedule_schedule (s : State) x : (s.withSchedule x).schedule = x := rfl

end Sys2Proof.Machine
end

