-- ==== Sys2Proof/Laws/Frames.lean ====
section
/-! SUPPORT. What each shared operation leaves unchanged: one lemma per field per operation. -/

namespace Sys2Proof.Machine

/-! ### `modLine` -/

@[simp] theorem modLine_clock (id : Nat) (f : Line → Line) (s : State) : (modLine id f s).clock = s.clock := rfl
@[simp] theorem modLine_tmr (id : Nat) (f : Line → Line) (s : State) : (modLine id f s).tmr = s.tmr := rfl
@[simp] theorem modLine_hpt (id : Nat) (f : Line → Line) (s : State) : (modLine id f s).hpt = s.hpt := rfl
@[simp] theorem modLine_dma (id : Nat) (f : Line → Line) (s : State) : (modLine id f s).dma = s.dma := rfl
@[simp] theorem modLine_edmac (id : Nat) (f : Line → Line) (s : State) : (modLine id f s).edmac = s.edmac := rfl
@[simp] theorem modLine_conn (id : Nat) (f : Line → Line) (s : State) : (modLine id f s).conn = s.conn := rfl
@[simp] theorem modLine_sd (id : Nat) (f : Line → Line) (s : State) : (modLine id f s).sd = s.sd := rfl
@[simp] theorem modLine_cf (id : Nat) (f : Line → Line) (s : State) : (modLine id f s).cf = s.cf := rfl
@[simp] theorem modLine_flash (id : Nat) (f : Line → Line) (s : State) : (modLine id f s).flash = s.flash := rfl
@[simp] theorem modLine_disp (id : Nat) (f : Line → Line) (s : State) : (modLine id f s).disp = s.disp := rfl
@[simp] theorem modLine_lim (id : Nat) (f : Line → Line) (s : State) : (modLine id f s).lim = s.lim := rfl
@[simp] theorem modLine_agents (id : Nat) (f : Line → Line) (s : State) : (modLine id f s).agents = s.agents := rfl
@[simp] theorem modLine_fatal (id : Nat) (f : Line → Line) (s : State) : (modLine id f s).fatal = s.fatal := rfl
@[simp] theorem modLine_cfg (id : Nat) (f : Line → Line) (s : State) : (modLine id f s).cfg = s.cfg := rfl
@[simp] theorem modLine_mem (id : Nat) (f : Line → Line) (s : State) : (modLine id f s).mem = s.mem := rfl
@[simp] theorem modLine_env (id : Nat) (f : Line → Line) (s : State) : (modLine id f s).env = s.env := rfl
@[simp] theorem modLine_calls (id : Nat) (f : Line → Line) (s : State) : (modLine id f s).calls = s.calls := rfl
@[simp] theorem modLine_surface (id : Nat) (f : Line → Line) (s : State) : (modLine id f s).surface = s.surface := rfl
@[simp] theorem modLine_ret (id : Nat) (f : Line → Line) (s : State) : (modLine id f s).ret = s.ret := rfl
@[simp] theorem modLine_schedule (id : Nat) (f : Line → Line) (s : State) : (modLine id f s).schedule = s.schedule := rfl

/-! ### `modTmr` -/

@[simp] theorem modTmr_ic (n : Nat) (f : TimerChannel → TimerChannel) (s : State) : (modTmr n f s).ic = s.ic := rfl
@[simp] theorem modTmr_clock (n : Nat) (f : TimerChannel → TimerChannel) (s : State) : (modTmr n f s).clock = s.clock := rfl
@[simp] theorem modTmr_hpt (n : Nat) (f : TimerChannel → TimerChannel) (s : State) : (modTmr n f s).hpt = s.hpt := rfl
@[simp] theorem modTmr_dma (n : Nat) (f : TimerChannel → TimerChannel) (s : State) : (modTmr n f s).dma = s.dma := rfl
@[simp] theorem modTmr_edmac (n : Nat) (f : TimerChannel → TimerChannel) (s : State) : (modTmr n f s).edmac = s.edmac := rfl
@[simp] theorem modTmr_conn (n : Nat) (f : TimerChannel → TimerChannel) (s : State) : (modTmr n f s).conn = s.conn := rfl
@[simp] theorem modTmr_sd (n : Nat) (f : TimerChannel → TimerChannel) (s : State) : (modTmr n f s).sd = s.sd := rfl
@[simp] theorem modTmr_cf (n : Nat) (f : TimerChannel → TimerChannel) (s : State) : (modTmr n f s).cf = s.cf := rfl
@[simp] theorem modTmr_flash (n : Nat) (f : TimerChannel → TimerChannel) (s : State) : (modTmr n f s).flash = s.flash := rfl
@[simp] theorem modTmr_disp (n : Nat) (f : TimerChannel → TimerChannel) (s : State) : (modTmr n f s).disp = s.disp := rfl
@[simp] theorem modTmr_lim (n : Nat) (f : TimerChannel → TimerChannel) (s : State) : (modTmr n f s).lim = s.lim := rfl
@[simp] theorem modTmr_agents (n : Nat) (f : TimerChannel → TimerChannel) (s : State) : (modTmr n f s).agents = s.agents := rfl
@[simp] theorem modTmr_fatal (n : Nat) (f : TimerChannel → TimerChannel) (s : State) : (modTmr n f s).fatal = s.fatal := rfl
@[simp] theorem modTmr_cfg (n : Nat) (f : TimerChannel → TimerChannel) (s : State) : (modTmr n f s).cfg = s.cfg := rfl
@[simp] theorem modTmr_mem (n : Nat) (f : TimerChannel → TimerChannel) (s : State) : (modTmr n f s).mem = s.mem := rfl
@[simp] theorem modTmr_env (n : Nat) (f : TimerChannel → TimerChannel) (s : State) : (modTmr n f s).env = s.env := rfl
@[simp] theorem modTmr_calls (n : Nat) (f : TimerChannel → TimerChannel) (s : State) : (modTmr n f s).calls = s.calls := rfl
@[simp] theorem modTmr_surface (n : Nat) (f : TimerChannel → TimerChannel) (s : State) : (modTmr n f s).surface = s.surface := rfl
@[simp] theorem modTmr_ret (n : Nat) (f : TimerChannel → TimerChannel) (s : State) : (modTmr n f s).ret = s.ret := rfl
@[simp] theorem modTmr_schedule (n : Nat) (f : TimerChannel → TimerChannel) (s : State) : (modTmr n f s).schedule = s.schedule := rfl

/-! ### `modHpt` -/

@[simp] theorem modHpt_ic (n : Nat) (f : HptChannel → HptChannel) (s : State) : (modHpt n f s).ic = s.ic := rfl
@[simp] theorem modHpt_clock (n : Nat) (f : HptChannel → HptChannel) (s : State) : (modHpt n f s).clock = s.clock := rfl
@[simp] theorem modHpt_tmr (n : Nat) (f : HptChannel → HptChannel) (s : State) : (modHpt n f s).tmr = s.tmr := rfl
@[simp] theorem modHpt_dma (n : Nat) (f : HptChannel → HptChannel) (s : State) : (modHpt n f s).dma = s.dma := rfl
@[simp] theorem modHpt_edmac (n : Nat) (f : HptChannel → HptChannel) (s : State) : (modHpt n f s).edmac = s.edmac := rfl
@[simp] theorem modHpt_conn (n : Nat) (f : HptChannel → HptChannel) (s : State) : (modHpt n f s).conn = s.conn := rfl
@[simp] theorem modHpt_sd (n : Nat) (f : HptChannel → HptChannel) (s : State) : (modHpt n f s).sd = s.sd := rfl
@[simp] theorem modHpt_cf (n : Nat) (f : HptChannel → HptChannel) (s : State) : (modHpt n f s).cf = s.cf := rfl
@[simp] theorem modHpt_flash (n : Nat) (f : HptChannel → HptChannel) (s : State) : (modHpt n f s).flash = s.flash := rfl
@[simp] theorem modHpt_disp (n : Nat) (f : HptChannel → HptChannel) (s : State) : (modHpt n f s).disp = s.disp := rfl
@[simp] theorem modHpt_lim (n : Nat) (f : HptChannel → HptChannel) (s : State) : (modHpt n f s).lim = s.lim := rfl
@[simp] theorem modHpt_agents (n : Nat) (f : HptChannel → HptChannel) (s : State) : (modHpt n f s).agents = s.agents := rfl
@[simp] theorem modHpt_fatal (n : Nat) (f : HptChannel → HptChannel) (s : State) : (modHpt n f s).fatal = s.fatal := rfl
@[simp] theorem modHpt_cfg (n : Nat) (f : HptChannel → HptChannel) (s : State) : (modHpt n f s).cfg = s.cfg := rfl
@[simp] theorem modHpt_mem (n : Nat) (f : HptChannel → HptChannel) (s : State) : (modHpt n f s).mem = s.mem := rfl
@[simp] theorem modHpt_env (n : Nat) (f : HptChannel → HptChannel) (s : State) : (modHpt n f s).env = s.env := rfl
@[simp] theorem modHpt_calls (n : Nat) (f : HptChannel → HptChannel) (s : State) : (modHpt n f s).calls = s.calls := rfl
@[simp] theorem modHpt_surface (n : Nat) (f : HptChannel → HptChannel) (s : State) : (modHpt n f s).surface = s.surface := rfl
@[simp] theorem modHpt_ret (n : Nat) (f : HptChannel → HptChannel) (s : State) : (modHpt n f s).ret = s.ret := rfl
@[simp] theorem modHpt_schedule (n : Nat) (f : HptChannel → HptChannel) (s : State) : (modHpt n f s).schedule = s.schedule := rfl

/-! ### `modDma` -/

@[simp] theorem modDma_ic (c : Nat) (f : DmaChannel → DmaChannel) (s : State) : (modDma c f s).ic = s.ic := rfl
@[simp] theorem modDma_clock (c : Nat) (f : DmaChannel → DmaChannel) (s : State) : (modDma c f s).clock = s.clock := rfl
@[simp] theorem modDma_tmr (c : Nat) (f : DmaChannel → DmaChannel) (s : State) : (modDma c f s).tmr = s.tmr := rfl
@[simp] theorem modDma_hpt (c : Nat) (f : DmaChannel → DmaChannel) (s : State) : (modDma c f s).hpt = s.hpt := rfl
@[simp] theorem modDma_edmac (c : Nat) (f : DmaChannel → DmaChannel) (s : State) : (modDma c f s).edmac = s.edmac := rfl
@[simp] theorem modDma_conn (c : Nat) (f : DmaChannel → DmaChannel) (s : State) : (modDma c f s).conn = s.conn := rfl
@[simp] theorem modDma_sd (c : Nat) (f : DmaChannel → DmaChannel) (s : State) : (modDma c f s).sd = s.sd := rfl
@[simp] theorem modDma_cf (c : Nat) (f : DmaChannel → DmaChannel) (s : State) : (modDma c f s).cf = s.cf := rfl
@[simp] theorem modDma_flash (c : Nat) (f : DmaChannel → DmaChannel) (s : State) : (modDma c f s).flash = s.flash := rfl
@[simp] theorem modDma_disp (c : Nat) (f : DmaChannel → DmaChannel) (s : State) : (modDma c f s).disp = s.disp := rfl
@[simp] theorem modDma_lim (c : Nat) (f : DmaChannel → DmaChannel) (s : State) : (modDma c f s).lim = s.lim := rfl
@[simp] theorem modDma_agents (c : Nat) (f : DmaChannel → DmaChannel) (s : State) : (modDma c f s).agents = s.agents := rfl
@[simp] theorem modDma_fatal (c : Nat) (f : DmaChannel → DmaChannel) (s : State) : (modDma c f s).fatal = s.fatal := rfl
@[simp] theorem modDma_cfg (c : Nat) (f : DmaChannel → DmaChannel) (s : State) : (modDma c f s).cfg = s.cfg := rfl
@[simp] theorem modDma_mem (c : Nat) (f : DmaChannel → DmaChannel) (s : State) : (modDma c f s).mem = s.mem := rfl
@[simp] theorem modDma_env (c : Nat) (f : DmaChannel → DmaChannel) (s : State) : (modDma c f s).env = s.env := rfl
@[simp] theorem modDma_calls (c : Nat) (f : DmaChannel → DmaChannel) (s : State) : (modDma c f s).calls = s.calls := rfl
@[simp] theorem modDma_surface (c : Nat) (f : DmaChannel → DmaChannel) (s : State) : (modDma c f s).surface = s.surface := rfl
@[simp] theorem modDma_ret (c : Nat) (f : DmaChannel → DmaChannel) (s : State) : (modDma c f s).ret = s.ret := rfl
@[simp] theorem modDma_schedule (c : Nat) (f : DmaChannel → DmaChannel) (s : State) : (modDma c f s).schedule = s.schedule := rfl

/-! ### `modEdmac` -/

@[simp] theorem modEdmac_ic (ch : Nat) (f : EdmacChannel → EdmacChannel) (s : State) : (modEdmac ch f s).ic = s.ic := rfl
@[simp] theorem modEdmac_clock (ch : Nat) (f : EdmacChannel → EdmacChannel) (s : State) : (modEdmac ch f s).clock = s.clock := rfl
@[simp] theorem modEdmac_tmr (ch : Nat) (f : EdmacChannel → EdmacChannel) (s : State) : (modEdmac ch f s).tmr = s.tmr := rfl
@[simp] theorem modEdmac_hpt (ch : Nat) (f : EdmacChannel → EdmacChannel) (s : State) : (modEdmac ch f s).hpt = s.hpt := rfl
@[simp] theorem modEdmac_dma (ch : Nat) (f : EdmacChannel → EdmacChannel) (s : State) : (modEdmac ch f s).dma = s.dma := rfl
@[simp] theorem modEdmac_conn (ch : Nat) (f : EdmacChannel → EdmacChannel) (s : State) : (modEdmac ch f s).conn = s.conn := rfl
@[simp] theorem modEdmac_sd (ch : Nat) (f : EdmacChannel → EdmacChannel) (s : State) : (modEdmac ch f s).sd = s.sd := rfl
@[simp] theorem modEdmac_cf (ch : Nat) (f : EdmacChannel → EdmacChannel) (s : State) : (modEdmac ch f s).cf = s.cf := rfl
@[simp] theorem modEdmac_flash (ch : Nat) (f : EdmacChannel → EdmacChannel) (s : State) : (modEdmac ch f s).flash = s.flash := rfl
@[simp] theorem modEdmac_disp (ch : Nat) (f : EdmacChannel → EdmacChannel) (s : State) : (modEdmac ch f s).disp = s.disp := rfl
@[simp] theorem modEdmac_lim (ch : Nat) (f : EdmacChannel → EdmacChannel) (s : State) : (modEdmac ch f s).lim = s.lim := rfl
@[simp] theorem modEdmac_agents (ch : Nat) (f : EdmacChannel → EdmacChannel) (s : State) : (modEdmac ch f s).agents = s.agents := rfl
@[simp] theorem modEdmac_fatal (ch : Nat) (f : EdmacChannel → EdmacChannel) (s : State) : (modEdmac ch f s).fatal = s.fatal := rfl
@[simp] theorem modEdmac_cfg (ch : Nat) (f : EdmacChannel → EdmacChannel) (s : State) : (modEdmac ch f s).cfg = s.cfg := rfl
@[simp] theorem modEdmac_mem (ch : Nat) (f : EdmacChannel → EdmacChannel) (s : State) : (modEdmac ch f s).mem = s.mem := rfl
@[simp] theorem modEdmac_env (ch : Nat) (f : EdmacChannel → EdmacChannel) (s : State) : (modEdmac ch f s).env = s.env := rfl
@[simp] theorem modEdmac_calls (ch : Nat) (f : EdmacChannel → EdmacChannel) (s : State) : (modEdmac ch f s).calls = s.calls := rfl
@[simp] theorem modEdmac_surface (ch : Nat) (f : EdmacChannel → EdmacChannel) (s : State) : (modEdmac ch f s).surface = s.surface := rfl
@[simp] theorem modEdmac_ret (ch : Nat) (f : EdmacChannel → EdmacChannel) (s : State) : (modEdmac ch f s).ret = s.ret := rfl
@[simp] theorem modEdmac_schedule (ch : Nat) (f : EdmacChannel → EdmacChannel) (s : State) : (modEdmac ch f s).schedule = s.schedule := rfl

/-! ### `modBank` -/

@[simp] theorem modBank_ic (b : Nat) (f : FlashBank → FlashBank) (s : State) : (modBank b f s).ic = s.ic := rfl
@[simp] theorem modBank_clock (b : Nat) (f : FlashBank → FlashBank) (s : State) : (modBank b f s).clock = s.clock := rfl
@[simp] theorem modBank_tmr (b : Nat) (f : FlashBank → FlashBank) (s : State) : (modBank b f s).tmr = s.tmr := rfl
@[simp] theorem modBank_hpt (b : Nat) (f : FlashBank → FlashBank) (s : State) : (modBank b f s).hpt = s.hpt := rfl
@[simp] theorem modBank_dma (b : Nat) (f : FlashBank → FlashBank) (s : State) : (modBank b f s).dma = s.dma := rfl
@[simp] theorem modBank_edmac (b : Nat) (f : FlashBank → FlashBank) (s : State) : (modBank b f s).edmac = s.edmac := rfl
@[simp] theorem modBank_conn (b : Nat) (f : FlashBank → FlashBank) (s : State) : (modBank b f s).conn = s.conn := rfl
@[simp] theorem modBank_sd (b : Nat) (f : FlashBank → FlashBank) (s : State) : (modBank b f s).sd = s.sd := rfl
@[simp] theorem modBank_cf (b : Nat) (f : FlashBank → FlashBank) (s : State) : (modBank b f s).cf = s.cf := rfl
@[simp] theorem modBank_disp (b : Nat) (f : FlashBank → FlashBank) (s : State) : (modBank b f s).disp = s.disp := rfl
@[simp] theorem modBank_lim (b : Nat) (f : FlashBank → FlashBank) (s : State) : (modBank b f s).lim = s.lim := rfl
@[simp] theorem modBank_agents (b : Nat) (f : FlashBank → FlashBank) (s : State) : (modBank b f s).agents = s.agents := rfl
@[simp] theorem modBank_fatal (b : Nat) (f : FlashBank → FlashBank) (s : State) : (modBank b f s).fatal = s.fatal := rfl
@[simp] theorem modBank_cfg (b : Nat) (f : FlashBank → FlashBank) (s : State) : (modBank b f s).cfg = s.cfg := rfl
@[simp] theorem modBank_mem (b : Nat) (f : FlashBank → FlashBank) (s : State) : (modBank b f s).mem = s.mem := rfl
@[simp] theorem modBank_env (b : Nat) (f : FlashBank → FlashBank) (s : State) : (modBank b f s).env = s.env := rfl
@[simp] theorem modBank_calls (b : Nat) (f : FlashBank → FlashBank) (s : State) : (modBank b f s).calls = s.calls := rfl
@[simp] theorem modBank_surface (b : Nat) (f : FlashBank → FlashBank) (s : State) : (modBank b f s).surface = s.surface := rfl
@[simp] theorem modBank_ret (b : Nat) (f : FlashBank → FlashBank) (s : State) : (modBank b f s).ret = s.ret := rfl
@[simp] theorem modBank_schedule (b : Nat) (f : FlashBank → FlashBank) (s : State) : (modBank b f s).schedule = s.schedule := rfl

/-! ### `setSched` -/

@[simp] theorem setSched_clock (id : Nat) (d : Word) (s : State) : (setSched id d s).clock = s.clock := rfl
@[simp] theorem setSched_tmr (id : Nat) (d : Word) (s : State) : (setSched id d s).tmr = s.tmr := rfl
@[simp] theorem setSched_hpt (id : Nat) (d : Word) (s : State) : (setSched id d s).hpt = s.hpt := rfl
@[simp] theorem setSched_dma (id : Nat) (d : Word) (s : State) : (setSched id d s).dma = s.dma := rfl
@[simp] theorem setSched_edmac (id : Nat) (d : Word) (s : State) : (setSched id d s).edmac = s.edmac := rfl
@[simp] theorem setSched_conn (id : Nat) (d : Word) (s : State) : (setSched id d s).conn = s.conn := rfl
@[simp] theorem setSched_sd (id : Nat) (d : Word) (s : State) : (setSched id d s).sd = s.sd := rfl
@[simp] theorem setSched_cf (id : Nat) (d : Word) (s : State) : (setSched id d s).cf = s.cf := rfl
@[simp] theorem setSched_flash (id : Nat) (d : Word) (s : State) : (setSched id d s).flash = s.flash := rfl
@[simp] theorem setSched_disp (id : Nat) (d : Word) (s : State) : (setSched id d s).disp = s.disp := rfl
@[simp] theorem setSched_lim (id : Nat) (d : Word) (s : State) : (setSched id d s).lim = s.lim := rfl
@[simp] theorem setSched_agents (id : Nat) (d : Word) (s : State) : (setSched id d s).agents = s.agents := rfl
@[simp] theorem setSched_fatal (id : Nat) (d : Word) (s : State) : (setSched id d s).fatal = s.fatal := rfl
@[simp] theorem setSched_cfg (id : Nat) (d : Word) (s : State) : (setSched id d s).cfg = s.cfg := rfl
@[simp] theorem setSched_mem (id : Nat) (d : Word) (s : State) : (setSched id d s).mem = s.mem := rfl
@[simp] theorem setSched_env (id : Nat) (d : Word) (s : State) : (setSched id d s).env = s.env := rfl
@[simp] theorem setSched_calls (id : Nat) (d : Word) (s : State) : (setSched id d s).calls = s.calls := rfl
@[simp] theorem setSched_surface (id : Nat) (d : Word) (s : State) : (setSched id d s).surface = s.surface := rfl
@[simp] theorem setSched_ret (id : Nat) (d : Word) (s : State) : (setSched id d s).ret = s.ret := rfl
@[simp] theorem setSched_schedule (id : Nat) (d : Word) (s : State) : (setSched id d s).schedule = s.schedule := rfl

/-! ### `setEnabled` -/

@[simp] theorem setEnabled_clock (id : Nat) (e : Bool) (s : State) : (setEnabled id e s).clock = s.clock := rfl
@[simp] theorem setEnabled_tmr (id : Nat) (e : Bool) (s : State) : (setEnabled id e s).tmr = s.tmr := rfl
@[simp] theorem setEnabled_hpt (id : Nat) (e : Bool) (s : State) : (setEnabled id e s).hpt = s.hpt := rfl
@[simp] theorem setEnabled_dma (id : Nat) (e : Bool) (s : State) : (setEnabled id e s).dma = s.dma := rfl
@[simp] theorem setEnabled_edmac (id : Nat) (e : Bool) (s : State) : (setEnabled id e s).edmac = s.edmac := rfl
@[simp] theorem setEnabled_conn (id : Nat) (e : Bool) (s : State) : (setEnabled id e s).conn = s.conn := rfl
@[simp] theorem setEnabled_sd (id : Nat) (e : Bool) (s : State) : (setEnabled id e s).sd = s.sd := rfl
@[simp] theorem setEnabled_cf (id : Nat) (e : Bool) (s : State) : (setEnabled id e s).cf = s.cf := rfl
@[simp] theorem setEnabled_flash (id : Nat) (e : Bool) (s : State) : (setEnabled id e s).flash = s.flash := rfl
@[simp] theorem setEnabled_disp (id : Nat) (e : Bool) (s : State) : (setEnabled id e s).disp = s.disp := rfl
@[simp] theorem setEnabled_lim (id : Nat) (e : Bool) (s : State) : (setEnabled id e s).lim = s.lim := rfl
@[simp] theorem setEnabled_agents (id : Nat) (e : Bool) (s : State) : (setEnabled id e s).agents = s.agents := rfl
@[simp] theorem setEnabled_fatal (id : Nat) (e : Bool) (s : State) : (setEnabled id e s).fatal = s.fatal := rfl
@[simp] theorem setEnabled_cfg (id : Nat) (e : Bool) (s : State) : (setEnabled id e s).cfg = s.cfg := rfl
@[simp] theorem setEnabled_mem (id : Nat) (e : Bool) (s : State) : (setEnabled id e s).mem = s.mem := rfl
@[simp] theorem setEnabled_env (id : Nat) (e : Bool) (s : State) : (setEnabled id e s).env = s.env := rfl
@[simp] theorem setEnabled_calls (id : Nat) (e : Bool) (s : State) : (setEnabled id e s).calls = s.calls := rfl
@[simp] theorem setEnabled_surface (id : Nat) (e : Bool) (s : State) : (setEnabled id e s).surface = s.surface := rfl
@[simp] theorem setEnabled_ret (id : Nat) (e : Bool) (s : State) : (setEnabled id e s).ret = s.ret := rfl
@[simp] theorem setEnabled_schedule (id : Nat) (e : Bool) (s : State) : (setEnabled id e s).schedule = s.schedule := rfl

/-! ### `setPhase` -/

@[simp] theorem setPhase_ic (p : TickPhase) (s : State) : (setPhase p s).ic = s.ic := rfl
@[simp] theorem setPhase_clock (p : TickPhase) (s : State) : (setPhase p s).clock = s.clock := rfl
@[simp] theorem setPhase_tmr (p : TickPhase) (s : State) : (setPhase p s).tmr = s.tmr := rfl
@[simp] theorem setPhase_hpt (p : TickPhase) (s : State) : (setPhase p s).hpt = s.hpt := rfl
@[simp] theorem setPhase_dma (p : TickPhase) (s : State) : (setPhase p s).dma = s.dma := rfl
@[simp] theorem setPhase_edmac (p : TickPhase) (s : State) : (setPhase p s).edmac = s.edmac := rfl
@[simp] theorem setPhase_conn (p : TickPhase) (s : State) : (setPhase p s).conn = s.conn := rfl
@[simp] theorem setPhase_sd (p : TickPhase) (s : State) : (setPhase p s).sd = s.sd := rfl
@[simp] theorem setPhase_cf (p : TickPhase) (s : State) : (setPhase p s).cf = s.cf := rfl
@[simp] theorem setPhase_flash (p : TickPhase) (s : State) : (setPhase p s).flash = s.flash := rfl
@[simp] theorem setPhase_disp (p : TickPhase) (s : State) : (setPhase p s).disp = s.disp := rfl
@[simp] theorem setPhase_lim (p : TickPhase) (s : State) : (setPhase p s).lim = s.lim := rfl
@[simp] theorem setPhase_fatal (p : TickPhase) (s : State) : (setPhase p s).fatal = s.fatal := rfl
@[simp] theorem setPhase_cfg (p : TickPhase) (s : State) : (setPhase p s).cfg = s.cfg := rfl
@[simp] theorem setPhase_mem (p : TickPhase) (s : State) : (setPhase p s).mem = s.mem := rfl
@[simp] theorem setPhase_env (p : TickPhase) (s : State) : (setPhase p s).env = s.env := rfl
@[simp] theorem setPhase_calls (p : TickPhase) (s : State) : (setPhase p s).calls = s.calls := rfl
@[simp] theorem setPhase_surface (p : TickPhase) (s : State) : (setPhase p s).surface = s.surface := rfl
@[simp] theorem setPhase_ret (p : TickPhase) (s : State) : (setPhase p s).ret = s.ret := rfl
@[simp] theorem setPhase_schedule (p : TickPhase) (s : State) : (setPhase p s).schedule = s.schedule := rfl

/-! ### `emit` -/

@[simp] theorem emit_ic (c : Call) (s : State) : (emit c s).ic = s.ic := rfl
@[simp] theorem emit_clock (c : Call) (s : State) : (emit c s).clock = s.clock := rfl
@[simp] theorem emit_tmr (c : Call) (s : State) : (emit c s).tmr = s.tmr := rfl
@[simp] theorem emit_hpt (c : Call) (s : State) : (emit c s).hpt = s.hpt := rfl
@[simp] theorem emit_dma (c : Call) (s : State) : (emit c s).dma = s.dma := rfl
@[simp] theorem emit_edmac (c : Call) (s : State) : (emit c s).edmac = s.edmac := rfl
@[simp] theorem emit_conn (c : Call) (s : State) : (emit c s).conn = s.conn := rfl
@[simp] theorem emit_sd (c : Call) (s : State) : (emit c s).sd = s.sd := rfl
@[simp] theorem emit_cf (c : Call) (s : State) : (emit c s).cf = s.cf := rfl
@[simp] theorem emit_flash (c : Call) (s : State) : (emit c s).flash = s.flash := rfl
@[simp] theorem emit_disp (c : Call) (s : State) : (emit c s).disp = s.disp := rfl
@[simp] theorem emit_lim (c : Call) (s : State) : (emit c s).lim = s.lim := rfl
@[simp] theorem emit_agents (c : Call) (s : State) : (emit c s).agents = s.agents := rfl
@[simp] theorem emit_fatal (c : Call) (s : State) : (emit c s).fatal = s.fatal := rfl
@[simp] theorem emit_cfg (c : Call) (s : State) : (emit c s).cfg = s.cfg := rfl
@[simp] theorem emit_mem (c : Call) (s : State) : (emit c s).mem = s.mem := rfl
@[simp] theorem emit_env (c : Call) (s : State) : (emit c s).env = s.env := rfl
@[simp] theorem emit_surface (c : Call) (s : State) : (emit c s).surface = s.surface := rfl
@[simp] theorem emit_ret (c : Call) (s : State) : (emit c s).ret = s.ret := rfl
@[simp] theorem emit_schedule (c : Call) (s : State) : (emit c s).schedule = s.schedule := rfl

/-! ### `logEvent` -/

@[simp] theorem logEvent_ic (k : LogKind) (info : LogInfo) (s : State) : (logEvent k info s).ic = s.ic := rfl
@[simp] theorem logEvent_clock (k : LogKind) (info : LogInfo) (s : State) : (logEvent k info s).clock = s.clock := rfl
@[simp] theorem logEvent_tmr (k : LogKind) (info : LogInfo) (s : State) : (logEvent k info s).tmr = s.tmr := rfl
@[simp] theorem logEvent_hpt (k : LogKind) (info : LogInfo) (s : State) : (logEvent k info s).hpt = s.hpt := rfl
@[simp] theorem logEvent_dma (k : LogKind) (info : LogInfo) (s : State) : (logEvent k info s).dma = s.dma := rfl
@[simp] theorem logEvent_edmac (k : LogKind) (info : LogInfo) (s : State) : (logEvent k info s).edmac = s.edmac := rfl
@[simp] theorem logEvent_conn (k : LogKind) (info : LogInfo) (s : State) : (logEvent k info s).conn = s.conn := rfl
@[simp] theorem logEvent_sd (k : LogKind) (info : LogInfo) (s : State) : (logEvent k info s).sd = s.sd := rfl
@[simp] theorem logEvent_cf (k : LogKind) (info : LogInfo) (s : State) : (logEvent k info s).cf = s.cf := rfl
@[simp] theorem logEvent_flash (k : LogKind) (info : LogInfo) (s : State) : (logEvent k info s).flash = s.flash := rfl
@[simp] theorem logEvent_disp (k : LogKind) (info : LogInfo) (s : State) : (logEvent k info s).disp = s.disp := rfl
@[simp] theorem logEvent_lim (k : LogKind) (info : LogInfo) (s : State) : (logEvent k info s).lim = s.lim := rfl
@[simp] theorem logEvent_agents (k : LogKind) (info : LogInfo) (s : State) : (logEvent k info s).agents = s.agents := rfl
@[simp] theorem logEvent_fatal (k : LogKind) (info : LogInfo) (s : State) : (logEvent k info s).fatal = s.fatal := rfl
@[simp] theorem logEvent_cfg (k : LogKind) (info : LogInfo) (s : State) : (logEvent k info s).cfg = s.cfg := rfl
@[simp] theorem logEvent_mem (k : LogKind) (info : LogInfo) (s : State) : (logEvent k info s).mem = s.mem := rfl
@[simp] theorem logEvent_env (k : LogKind) (info : LogInfo) (s : State) : (logEvent k info s).env = s.env := rfl
@[simp] theorem logEvent_surface (k : LogKind) (info : LogInfo) (s : State) : (logEvent k info s).surface = s.surface := rfl
@[simp] theorem logEvent_ret (k : LogKind) (info : LogInfo) (s : State) : (logEvent k info s).ret = s.ret := rfl
@[simp] theorem logEvent_schedule (k : LogKind) (info : LogInfo) (s : State) : (logEvent k info s).schedule = s.schedule := rfl

/-! ### `logUnmodeled` -/

@[simp] theorem logUnmodeled_ic (a : Word) (w : Bool) (v : Word) (s : State) : (logUnmodeled a w v s).ic = s.ic := rfl
@[simp] theorem logUnmodeled_clock (a : Word) (w : Bool) (v : Word) (s : State) : (logUnmodeled a w v s).clock = s.clock := rfl
@[simp] theorem logUnmodeled_tmr (a : Word) (w : Bool) (v : Word) (s : State) : (logUnmodeled a w v s).tmr = s.tmr := rfl
@[simp] theorem logUnmodeled_hpt (a : Word) (w : Bool) (v : Word) (s : State) : (logUnmodeled a w v s).hpt = s.hpt := rfl
@[simp] theorem logUnmodeled_dma (a : Word) (w : Bool) (v : Word) (s : State) : (logUnmodeled a w v s).dma = s.dma := rfl
@[simp] theorem logUnmodeled_edmac (a : Word) (w : Bool) (v : Word) (s : State) : (logUnmodeled a w v s).edmac = s.edmac := rfl
@[simp] theorem logUnmodeled_conn (a : Word) (w : Bool) (v : Word) (s : State) : (logUnmodeled a w v s).conn = s.conn := rfl
@[simp] theorem logUnmodeled_sd (a : Word) (w : Bool) (v : Word) (s : State) : (logUnmodeled a w v s).sd = s.sd := rfl
@[simp] theorem logUnmodeled_cf (a : Word) (w : Bool) (v : Word) (s : State) : (logUnmodeled a w v s).cf = s.cf := rfl
@[simp] theorem logUnmodeled_flash (a : Word) (w : Bool) (v : Word) (s : State) : (logUnmodeled a w v s).flash = s.flash := rfl
@[simp] theorem logUnmodeled_disp (a : Word) (w : Bool) (v : Word) (s : State) : (logUnmodeled a w v s).disp = s.disp := rfl
@[simp] theorem logUnmodeled_lim (a : Word) (w : Bool) (v : Word) (s : State) : (logUnmodeled a w v s).lim = s.lim := rfl
@[simp] theorem logUnmodeled_agents (a : Word) (w : Bool) (v : Word) (s : State) : (logUnmodeled a w v s).agents = s.agents := rfl
@[simp] theorem logUnmodeled_fatal (a : Word) (w : Bool) (v : Word) (s : State) : (logUnmodeled a w v s).fatal = s.fatal := rfl
@[simp] theorem logUnmodeled_cfg (a : Word) (w : Bool) (v : Word) (s : State) : (logUnmodeled a w v s).cfg = s.cfg := rfl
@[simp] theorem logUnmodeled_mem (a : Word) (w : Bool) (v : Word) (s : State) : (logUnmodeled a w v s).mem = s.mem := rfl
@[simp] theorem logUnmodeled_env (a : Word) (w : Bool) (v : Word) (s : State) : (logUnmodeled a w v s).env = s.env := rfl
@[simp] theorem logUnmodeled_surface (a : Word) (w : Bool) (v : Word) (s : State) : (logUnmodeled a w v s).surface = s.surface := rfl
@[simp] theorem logUnmodeled_ret (a : Word) (w : Bool) (v : Word) (s : State) : (logUnmodeled a w v s).ret = s.ret := rfl
@[simp] theorem logUnmodeled_schedule (a : Word) (w : Bool) (v : Word) (s : State) : (logUnmodeled a w v s).schedule = s.schedule := rfl

/-! ### `raiseFatal` -/

@[simp] theorem raiseFatal_ic (r : FatalReason) (s : State) : (raiseFatal r s).ic = s.ic := rfl
@[simp] theorem raiseFatal_clock (r : FatalReason) (s : State) : (raiseFatal r s).clock = s.clock := rfl
@[simp] theorem raiseFatal_tmr (r : FatalReason) (s : State) : (raiseFatal r s).tmr = s.tmr := rfl
@[simp] theorem raiseFatal_hpt (r : FatalReason) (s : State) : (raiseFatal r s).hpt = s.hpt := rfl
@[simp] theorem raiseFatal_dma (r : FatalReason) (s : State) : (raiseFatal r s).dma = s.dma := rfl
@[simp] theorem raiseFatal_edmac (r : FatalReason) (s : State) : (raiseFatal r s).edmac = s.edmac := rfl
@[simp] theorem raiseFatal_conn (r : FatalReason) (s : State) : (raiseFatal r s).conn = s.conn := rfl
@[simp] theorem raiseFatal_sd (r : FatalReason) (s : State) : (raiseFatal r s).sd = s.sd := rfl
@[simp] theorem raiseFatal_cf (r : FatalReason) (s : State) : (raiseFatal r s).cf = s.cf := rfl
@[simp] theorem raiseFatal_flash (r : FatalReason) (s : State) : (raiseFatal r s).flash = s.flash := rfl
@[simp] theorem raiseFatal_disp (r : FatalReason) (s : State) : (raiseFatal r s).disp = s.disp := rfl
@[simp] theorem raiseFatal_lim (r : FatalReason) (s : State) : (raiseFatal r s).lim = s.lim := rfl
@[simp] theorem raiseFatal_agents (r : FatalReason) (s : State) : (raiseFatal r s).agents = s.agents := rfl
@[simp] theorem raiseFatal_cfg (r : FatalReason) (s : State) : (raiseFatal r s).cfg = s.cfg := rfl
@[simp] theorem raiseFatal_mem (r : FatalReason) (s : State) : (raiseFatal r s).mem = s.mem := rfl
@[simp] theorem raiseFatal_env (r : FatalReason) (s : State) : (raiseFatal r s).env = s.env := rfl
@[simp] theorem raiseFatal_calls (r : FatalReason) (s : State) : (raiseFatal r s).calls = s.calls := rfl
@[simp] theorem raiseFatal_surface (r : FatalReason) (s : State) : (raiseFatal r s).surface = s.surface := rfl
@[simp] theorem raiseFatal_ret (r : FatalReason) (s : State) : (raiseFatal r s).ret = s.ret := rfl
@[simp] theorem raiseFatal_schedule (r : FatalReason) (s : State) : (raiseFatal r s).schedule = s.schedule := rfl

/-! ### `queueTrigger` -/

@[simp] theorem queueTrigger_ic (id d : Word) (s : State) : (queueTrigger id d s).ic = s.ic := rfl
@[simp] theorem queueTrigger_clock (id d : Word) (s : State) : (queueTrigger id d s).clock = s.clock := rfl
@[simp] theorem queueTrigger_tmr (id d : Word) (s : State) : (queueTrigger id d s).tmr = s.tmr := rfl
@[simp] theorem queueTrigger_hpt (id d : Word) (s : State) : (queueTrigger id d s).hpt = s.hpt := rfl
@[simp] theorem queueTrigger_dma (id d : Word) (s : State) : (queueTrigger id d s).dma = s.dma := rfl
@[simp] theorem queueTrigger_edmac (id d : Word) (s : State) : (queueTrigger id d s).edmac = s.edmac := rfl
@[simp] theorem queueTrigger_conn (id d : Word) (s : State) : (queueTrigger id d s).conn = s.conn := rfl
@[simp] theorem queueTrigger_sd (id d : Word) (s : State) : (queueTrigger id d s).sd = s.sd := rfl
@[simp] theorem queueTrigger_cf (id d : Word) (s : State) : (queueTrigger id d s).cf = s.cf := rfl
@[simp] theorem queueTrigger_flash (id d : Word) (s : State) : (queueTrigger id d s).flash = s.flash := rfl
@[simp] theorem queueTrigger_disp (id d : Word) (s : State) : (queueTrigger id d s).disp = s.disp := rfl
@[simp] theorem queueTrigger_lim (id d : Word) (s : State) : (queueTrigger id d s).lim = s.lim := rfl
@[simp] theorem queueTrigger_fatal (id d : Word) (s : State) : (queueTrigger id d s).fatal = s.fatal := rfl
@[simp] theorem queueTrigger_cfg (id d : Word) (s : State) : (queueTrigger id d s).cfg = s.cfg := rfl
@[simp] theorem queueTrigger_mem (id d : Word) (s : State) : (queueTrigger id d s).mem = s.mem := rfl
@[simp] theorem queueTrigger_env (id d : Word) (s : State) : (queueTrigger id d s).env = s.env := rfl
@[simp] theorem queueTrigger_calls (id d : Word) (s : State) : (queueTrigger id d s).calls = s.calls := rfl
@[simp] theorem queueTrigger_surface (id d : Word) (s : State) : (queueTrigger id d s).surface = s.surface := rfl
@[simp] theorem queueTrigger_ret (id d : Word) (s : State) : (queueTrigger id d s).ret = s.ret := rfl
@[simp] theorem queueTrigger_schedule (id d : Word) (s : State) : (queueTrigger id d s).schedule = s.schedule := rfl

/-! ### `acknowledge` -/

@[simp] theorem acknowledge_clock (s : State) : (acknowledge s).clock = s.clock := rfl
@[simp] theorem acknowledge_tmr (s : State) : (acknowledge s).tmr = s.tmr := rfl
@[simp] theorem acknowledge_hpt (s : State) : (acknowledge s).hpt = s.hpt := rfl
@[simp] theorem acknowledge_dma (s : State) : (acknowledge s).dma = s.dma := rfl
@[simp] theorem acknowledge_edmac (s : State) : (acknowledge s).edmac = s.edmac := rfl
@[simp] theorem acknowledge_conn (s : State) : (acknowledge s).conn = s.conn := rfl
@[simp] theorem acknowledge_sd (s : State) : (acknowledge s).sd = s.sd := rfl
@[simp] theorem acknowledge_cf (s : State) : (acknowledge s).cf = s.cf := rfl
@[simp] theorem acknowledge_flash (s : State) : (acknowledge s).flash = s.flash := rfl
@[simp] theorem acknowledge_disp (s : State) : (acknowledge s).disp = s.disp := rfl
@[simp] theorem acknowledge_lim (s : State) : (acknowledge s).lim = s.lim := rfl
@[simp] theorem acknowledge_agents (s : State) : (acknowledge s).agents = s.agents := rfl
@[simp] theorem acknowledge_fatal (s : State) : (acknowledge s).fatal = s.fatal := rfl
@[simp] theorem acknowledge_cfg (s : State) : (acknowledge s).cfg = s.cfg := rfl
@[simp] theorem acknowledge_mem (s : State) : (acknowledge s).mem = s.mem := rfl
@[simp] theorem acknowledge_env (s : State) : (acknowledge s).env = s.env := rfl
@[simp] theorem acknowledge_surface (s : State) : (acknowledge s).surface = s.surface := rfl
@[simp] theorem acknowledge_ret (s : State) : (acknowledge s).ret = s.ret := rfl
@[simp] theorem acknowledge_schedule (s : State) : (acknowledge s).schedule = s.schedule := rfl

/-! ### `osArm` -/

@[simp] theorem osArm_clock (s : State) : (osArm s).clock = s.clock := rfl
@[simp] theorem osArm_tmr (s : State) : (osArm s).tmr = s.tmr := rfl
@[simp] theorem osArm_hpt (s : State) : (osArm s).hpt = s.hpt := rfl
@[simp] theorem osArm_dma (s : State) : (osArm s).dma = s.dma := rfl
@[simp] theorem osArm_edmac (s : State) : (osArm s).edmac = s.edmac := rfl
@[simp] theorem osArm_conn (s : State) : (osArm s).conn = s.conn := rfl
@[simp] theorem osArm_sd (s : State) : (osArm s).sd = s.sd := rfl
@[simp] theorem osArm_cf (s : State) : (osArm s).cf = s.cf := rfl
@[simp] theorem osArm_flash (s : State) : (osArm s).flash = s.flash := rfl
@[simp] theorem osArm_disp (s : State) : (osArm s).disp = s.disp := rfl
@[simp] theorem osArm_lim (s : State) : (osArm s).lim = s.lim := rfl
@[simp] theorem osArm_agents (s : State) : (osArm s).agents = s.agents := rfl
@[simp] theorem osArm_fatal (s : State) : (osArm s).fatal = s.fatal := rfl
@[simp] theorem osArm_cfg (s : State) : (osArm s).cfg = s.cfg := rfl
@[simp] theorem osArm_mem (s : State) : (osArm s).mem = s.mem := rfl
@[simp] theorem osArm_env (s : State) : (osArm s).env = s.env := rfl
@[simp] theorem osArm_calls (s : State) : (osArm s).calls = s.calls := rfl
@[simp] theorem osArm_surface (s : State) : (osArm s).surface = s.surface := rfl
@[simp] theorem osArm_ret (s : State) : (osArm s).ret = s.ret := rfl
@[simp] theorem osArm_schedule (s : State) : (osArm s).schedule = s.schedule := rfl

/-! ### `osRearm` -/

@[simp] theorem osRearm_clock (s : State) : (osRearm s).clock = s.clock := by
  unfold osRearm; split <;> rfl
@[simp] theorem osRearm_tmr (s : State) : (osRearm s).tmr = s.tmr := by
  unfold osRearm; split <;> rfl
@[simp] theorem osRearm_hpt (s : State) : (osRearm s).hpt = s.hpt := by
  unfold osRearm; split <;> rfl
@[simp] theorem osRearm_dma (s : State) : (osRearm s).dma = s.dma := by
  unfold osRearm; split <;> rfl
@[simp] theorem osRearm_edmac (s : State) : (osRearm s).edmac = s.edmac := by
  unfold osRearm; split <;> rfl
@[simp] theorem osRearm_conn (s : State) : (osRearm s).conn = s.conn := by
  unfold osRearm; split <;> rfl
@[simp] theorem osRearm_sd (s : State) : (osRearm s).sd = s.sd := by
  unfold osRearm; split <;> rfl
@[simp] theorem osRearm_cf (s : State) : (osRearm s).cf = s.cf := by
  unfold osRearm; split <;> rfl
@[simp] theorem osRearm_flash (s : State) : (osRearm s).flash = s.flash := by
  unfold osRearm; split <;> rfl
@[simp] theorem osRearm_disp (s : State) : (osRearm s).disp = s.disp := by
  unfold osRearm; split <;> rfl
@[simp] theorem osRearm_lim (s : State) : (osRearm s).lim = s.lim := by
  unfold osRearm; split <;> rfl
@[simp] theorem osRearm_agents (s : State) : (osRearm s).agents = s.agents := by
  unfold osRearm; split <;> rfl
@[simp] theorem osRearm_fatal (s : State) : (osRearm s).fatal = s.fatal := by
  unfold osRearm; split <;> rfl
@[simp] theorem osRearm_cfg (s : State) : (osRearm s).cfg = s.cfg := by
  unfold osRearm; split <;> rfl
@[simp] theorem osRearm_mem (s : State) : (osRearm s).mem = s.mem := by
  unfold osRearm; split <;> rfl
@[simp] theorem osRearm_env (s : State) : (osRearm s).env = s.env := by
  unfold osRearm; split <;> rfl
@[simp] theorem osRearm_calls (s : State) : (osRearm s).calls = s.calls := by
  unfold osRearm; split <;> rfl
@[simp] theorem osRearm_surface (s : State) : (osRearm s).surface = s.surface := by
  unfold osRearm; split <;> rfl
@[simp] theorem osRearm_ret (s : State) : (osRearm s).ret = s.ret := by
  unfold osRearm; split <;> rfl
@[simp] theorem osRearm_schedule (s : State) : (osRearm s).schedule = s.schedule := by
  unfold osRearm; split <;> rfl

/-! ### `deliver` -/

@[simp] theorem deliver_clock (id : Nat) (s : State) : (deliver id s).clock = s.clock := by
  unfold deliver; dsimp only; split <;> simp
@[simp] theorem deliver_tmr (id : Nat) (s : State) : (deliver id s).tmr = s.tmr := by
  unfold deliver; dsimp only; split <;> simp
@[simp] theorem deliver_hpt (id : Nat) (s : State) : (deliver id s).hpt = s.hpt := by
  unfold deliver; dsimp only; split <;> simp
@[simp] theorem deliver_dma (id : Nat) (s : State) : (deliver id s).dma = s.dma := by
  unfold deliver; dsimp only; split <;> simp
@[simp] theorem deliver_edmac (id : Nat) (s : State) : (deliver id s).edmac = s.edmac := by
  unfold deliver; dsimp only; split <;> simp
@[simp] theorem deliver_conn (id : Nat) (s : State) : (deliver id s).conn = s.conn := by
  unfold deliver; dsimp only; split <;> simp
@[simp] theorem deliver_sd (id : Nat) (s : State) : (deliver id s).sd = s.sd := by
  unfold deliver; dsimp only; split <;> simp
@[simp] theorem deliver_cf (id : Nat) (s : State) : (deliver id s).cf = s.cf := by
  unfold deliver; dsimp only; split <;> simp
@[simp] theorem deliver_flash (id : Nat) (s : State) : (deliver id s).flash = s.flash := by
  unfold deliver; dsimp only; split <;> simp
@[simp] theorem deliver_disp (id : Nat) (s : State) : (deliver id s).disp = s.disp := by
  unfold deliver; dsimp only; split <;> simp
@[simp] theorem deliver_lim (id : Nat) (s : State) : (deliver id s).lim = s.lim := by
  unfold deliver; dsimp only; split <;> simp
@[simp] theorem deliver_agents (id : Nat) (s : State) : (deliver id s).agents = s.agents := by
  unfold deliver; dsimp only; split <;> simp
@[simp] theorem deliver_fatal (id : Nat) (s : State) : (deliver id s).fatal = s.fatal := by
  unfold deliver; dsimp only; split <;> simp
@[simp] theorem deliver_cfg (id : Nat) (s : State) : (deliver id s).cfg = s.cfg := by
  unfold deliver; dsimp only; split <;> simp
@[simp] theorem deliver_mem (id : Nat) (s : State) : (deliver id s).mem = s.mem := by
  unfold deliver; dsimp only; split <;> simp
@[simp] theorem deliver_env (id : Nat) (s : State) : (deliver id s).env = s.env := by
  unfold deliver; dsimp only; split <;> simp
@[simp] theorem deliver_surface (id : Nat) (s : State) : (deliver id s).surface = s.surface := by
  unfold deliver; dsimp only; split <;> simp
@[simp] theorem deliver_ret (id : Nat) (s : State) : (deliver id s).ret = s.ret := by
  unfold deliver; dsimp only; split <;> simp
@[simp] theorem deliver_schedule (id : Nat) (s : State) : (deliver id s).schedule = s.schedule := by
  unfold deliver; dsimp only; split <;> simp

/-! ### `trigger` -/

@[simp] theorem trigger_clock (id d : Word) (s : State) : (trigger id d s).clock = s.clock := by
  unfold trigger; split <;> [split; skip] <;> simp
@[simp] theorem trigger_tmr (id d : Word) (s : State) : (trigger id d s).tmr = s.tmr := by
  unfold trigger; split <;> [split; skip] <;> simp
@[simp] theorem trigger_hpt (id d : Word) (s : State) : (trigger id d s).hpt = s.hpt := by
  unfold trigger; split <;> [split; skip] <;> simp
@[simp] theorem trigger_dma (id d : Word) (s : State) : (trigger id d s).dma = s.dma := by
  unfold trigger; split <;> [split; skip] <;> simp
@[simp] theorem trigger_edmac (id d : Word) (s : State) : (trigger id d s).edmac = s.edmac := by
  unfold trigger; split <;> [split; skip] <;> simp
@[simp] theorem trigger_conn (id d : Word) (s : State) : (trigger id d s).conn = s.conn := by
  unfold trigger; split <;> [split; skip] <;> simp
@[simp] theorem trigger_sd (id d : Word) (s : State) : (trigger id d s).sd = s.sd := by
  unfold trigger; split <;> [split; skip] <;> simp
@[simp] theorem trigger_cf (id d : Word) (s : State) : (trigger id d s).cf = s.cf := by
  unfold trigger; split <;> [split; skip] <;> simp
@[simp] theorem trigger_flash (id d : Word) (s : State) : (trigger id d s).flash = s.flash := by
  unfold trigger; split <;> [split; skip] <;> simp
@[simp] theorem trigger_disp (id d : Word) (s : State) : (trigger id d s).disp = s.disp := by
  unfold trigger; split <;> [split; skip] <;> simp
@[simp] theorem trigger_lim (id d : Word) (s : State) : (trigger id d s).lim = s.lim := by
  unfold trigger; split <;> [split; skip] <;> simp
@[simp] theorem trigger_agents (id d : Word) (s : State) : (trigger id d s).agents = s.agents := by
  unfold trigger; split <;> [split; skip] <;> simp
@[simp] theorem trigger_cfg (id d : Word) (s : State) : (trigger id d s).cfg = s.cfg := by
  unfold trigger; split <;> [split; skip] <;> simp
@[simp] theorem trigger_mem (id d : Word) (s : State) : (trigger id d s).mem = s.mem := by
  unfold trigger; split <;> [split; skip] <;> simp
@[simp] theorem trigger_env (id d : Word) (s : State) : (trigger id d s).env = s.env := by
  unfold trigger; split <;> [split; skip] <;> simp
@[simp] theorem trigger_surface (id d : Word) (s : State) : (trigger id d s).surface = s.surface := by
  unfold trigger; split <;> [split; skip] <;> simp
@[simp] theorem trigger_ret (id d : Word) (s : State) : (trigger id d s).ret = s.ret := by
  unfold trigger; split <;> [split; skip] <;> simp
@[simp] theorem trigger_schedule (id d : Word) (s : State) : (trigger id d s).schedule = s.schedule := by
  unfold trigger; split <;> [split; skip] <;> simp

end Sys2Proof.Machine
end

