-- ==== Sys2Proof/Laws/Lists.lean ====
section
/-! SUPPORT. Small facts of lists and delays that the statements about register files and byte streams rest on. -/

namespace Sys2Proof.Laws

open Sys2Proof.Machine

/-- Changing one entry of a register file in place is writing the changed value back. -/
theorem modify_eq_set {α : Type _} (l : List α) (n : Nat) (f : α → α) (d : α) :
    l.modify n f = l.set n (f (l.getD n d)) := by
  apply List.ext_getElem?
  intro i
  rw [List.getElem?_modify, List.getElem?_set]
  by_cases h : n = i
  · subst h
    by_cases h2 : n < l.length
    · simp [h2]
    · simp [h2]
  · simp [h]

/-- A delay of at least one unit, as a number. -/
theorem atLeastOne_eq (d : Word) : atLeastOne d = BitVec.ofNat 32 (max d.toNat 1) := by
  unfold atLeastOne
  split
  · rename_i h; subst h; rfl
  · rename_i h
    have : d.toNat ≠ 0 := fun hh => h (BitVec.eq_of_toNat_eq (by simpa using hh))
    apply BitVec.eq_of_toNat_eq
    rw [BitVec.toNat_ofNat, Nat.mod_eq_of_lt] <;> omega

/-- The OS tick's delay as a number: the reload value over 256, at least one. -/
theorem osDelay_eq (r : Word) : osDelay r = BitVec.ofNat 32 (max (r.toNat / 256) 1) := by
  have h : (r >>> 8).toNat = r.toNat / 256 := by simp [BitVec.toNat_ushiftRight, Nat.shiftRight_eq_div_pow]
  simp only [osDelay, Config.osReloadShift, atLeastOne_eq, h]

/-- Reading bytes the card's script holds takes exactly those bytes off its front. -/
theorem sdReadBytes_script (bs more : List Byte) (s : State) (hs : s.env.sdBytes = bs ++ more) :
    sdReadBytes bs.length s = (bs, s.withEnv { s.env with sdBytes := more }) := by
  induction bs generalizing s with
  | nil => simp only [List.nil_append] at hs; simp only [List.length_nil, sdReadBytes, ← hs]; rfl
  | cons x xs ih =>
    have h1 : sdReadByte s = (x, s.withEnv { s.env with sdBytes := xs ++ more }) := by simp [sdReadByte, hs]
    simp only [List.length_cons, sdReadBytes, h1]
    rw [ih _ rfl]
    rfl

/-- Reading bytes the CF device's script holds takes exactly those bytes off its front. -/
theorem cfReadBytes_script (bs more : List Byte) (s : State) (hs : s.env.cfBytes = bs ++ more) :
    cfReadBytes bs.length s = (bs, s.withEnv { s.env with cfBytes := more }) := by
  induction bs generalizing s with
  | nil => simp only [List.nil_append] at hs; simp only [List.length_nil, cfReadBytes, ← hs]; rfl
  | cons x xs ih =>
    have h1 : cfReadByte s = (x, s.withEnv { s.env with cfBytes := xs ++ more }) := by simp [cfReadByte, hs]
    simp only [List.length_cons, cfReadBytes, h1]
    rw [ih _ rfl]
    rfl

end Sys2Proof.Laws
end

