-- ==== Sys2Proof/Laws/Memory.lean ====
section
/-! SUPPORT. The memory operations: each keeps the canonical form, a read after a write to the same place gives the
value written, and a write leaves every other place alone. -/

namespace Sys2Proof.Machine

/-! ### The canonical form -/

theorem cellsRising_cons (e : Host.Cell) (m : List Host.Cell) :
    cellsRising (e :: m) = true ↔ (∀ x ∈ m, e.1 < x.1) ∧ cellsRising m = true := by
  induction m generalizing e with
  | nil => simp [cellsRising]
  | cons f rest ih =>
    simp only [cellsRising, Bool.and_eq_true, decide_eq_true_eq, List.mem_cons, forall_eq_or_imp]
    constructor
    · rintro ⟨h1, h2⟩
      exact ⟨⟨h1, fun x hx => Nat.lt_trans h1 (((ih f).1 h2).1 x hx)⟩, h2⟩
    · rintro ⟨⟨h1, _⟩, h2⟩
      exact ⟨h1, h2⟩

/-- The canonical form, entry by entry. -/
theorem memory_wf_iff (dflt : Option Byte) (limit : Nat) (m : Memory) :
    Memory.wf dflt limit m = true ↔ cellsRising m = true ∧ ∀ x ∈ m, some x.2 ≠ dflt ∧ x.1 < limit := by
  simp only [Memory.wf, cellsCanonical, List.all_eq_true, Bool.and_eq_true, decide_eq_true_eq]

theorem memory_wf_nil (dflt : Option Byte) (limit : Nat) : Memory.wf dflt limit [] = true := by
  simp [Memory.wf, cellsCanonical, cellsRising]

theorem memory_wf_cons (dflt : Option Byte) (limit : Nat) (e : Host.Cell) (m : Memory) :
    Memory.wf dflt limit (e :: m) = true ↔
      (∀ x ∈ m, e.1 < x.1) ∧ some e.2 ≠ dflt ∧ e.1 < limit ∧ Memory.wf dflt limit m = true := by
  simp only [memory_wf_iff, cellsRising_cons, List.mem_cons, forall_eq_or_imp]
  tauto

/-! ### One byte -/

/-- An address that no entry lists reads as the default. -/
theorem memRead_unlisted (dflt : Byte) (m : Memory) (a : Nat) (h : ∀ x ∈ m, x.1 ≠ a) : memRead dflt m a = dflt := by
  induction m with
  | nil => rfl
  | cons e m ih =>
    simp only [List.mem_cons, forall_eq_or_imp] at h
    simp [memRead, h.1, ih h.2]

/-- The entries of a written memory are old entries or the one written. -/
theorem mem_memWrite {dflt : Option Byte} {m : Memory} {a : Nat} {b : Byte} {x : Host.Cell}
    (h : x ∈ memWrite dflt m a b) : x ∈ m ∨ (x = (a, b) ∧ some b ≠ dflt) := by
  induction m with
  | nil =>
    simp only [memWrite] at h
    split at h <;> simp_all
  | cons e m ih =>
    simp only [memWrite] at h
    split at h
    · split at h <;> simp_all
      tauto
    · split at h
      · split at h <;> simp_all
        tauto
      · rcases List.mem_cons.1 h with h | h
        · exact .inl (h ▸ List.mem_cons_self)
        · rcases ih h with h | h
          · exact .inl (List.mem_cons_of_mem _ h)
          · exact .inr h

/-- A write keeps the canonical form. -/
theorem memWrite_wf {dflt : Option Byte} {limit : Nat} {m : Memory} {a : Nat} (b : Byte)
    (hm : Memory.wf dflt limit m = true) (ha : a < limit) : Memory.wf dflt limit (memWrite dflt m a b) = true := by
  induction m with
  | nil =>
    simp only [memWrite]
    split
    · exact memory_wf_nil ..
    · rename_i h
      exact (memory_wf_cons ..).2 ⟨by simp, h, ha, memory_wf_nil ..⟩
  | cons e m ih =>
    have hc := (memory_wf_cons ..).1 hm
    simp only [memWrite]
    split
    · rename_i hlt
      split
      · exact hm
      · rename_i h
        refine (memory_wf_cons ..).2 ⟨?_, h, ha, hm⟩
        intro x hx
        rcases List.mem_cons.1 hx with rfl | hx
        · exact hlt
        · exact Nat.lt_trans hlt (hc.1 x hx)
    · split
      · rename_i heq
        split
        · exact hc.2.2.2
        · rename_i h
          exact (memory_wf_cons ..).2 ⟨fun x hx => heq ▸ hc.1 x hx, h, ha, hc.2.2.2⟩
      · rename_i hnlt hne
        refine (memory_wf_cons ..).2 ⟨?_, hc.2.1, hc.2.2.1, ih hc.2.2.2⟩
        intro x hx
        rcases mem_memWrite hx with hx | ⟨rfl, _⟩
        · exact hc.1 x hx
        · show e.1 < a
          omega

/-- A read after a write: the byte written at its address, the old byte everywhere else. -/
theorem memRead_memWrite {dflt : Byte} {drop : Option Byte} (hd : ∀ d, drop = some d → d = dflt) {m : Memory}
    (hm : cellsRising m = true) (a : Nat) (b : Byte) (x : Nat) :
    memRead dflt (memWrite drop m a b) x = if x = a then b else memRead dflt m x := by
  induction m with
  | nil =>
    simp only [memWrite]
    split
    · rename_i h
      simp [memRead, hd b h.symm]
    · by_cases hx : x = a
      · subst hx
        simp [memRead]
      · simp [memRead, hx, Ne.symm hx]
  | cons e m ih =>
    have hc := (cellsRising_cons e m).1 hm
    simp only [memWrite]
    split
    · rename_i hlt
      have hun : ∀ y ∈ e :: m, y.1 ≠ a := by
        intro y hy
        rcases List.mem_cons.1 hy with rfl | hy
        · omega
        · have := hc.1 y hy
          omega
      split
      · rename_i hb
        by_cases hx : x = a
        · subst hx
          rw [memRead_unlisted dflt (e :: m) x hun, if_pos rfl, hd b hb.symm]
        · simp [hx]
      · by_cases hx : x = a
        · subst hx
          simp [memRead]
        · simp [memRead, hx, Ne.symm hx]
    · split
      · rename_i heq
        have hun : ∀ y ∈ m, y.1 ≠ a := fun y hy => by
          have := hc.1 y hy
          omega
        split
        · rename_i hb
          by_cases hx : x = a
          · subst hx
            rw [memRead_unlisted dflt m x hun, if_pos rfl, hd b hb.symm]
          · have : ¬ e.1 = x := by omega
            simp [memRead, hx, this]
        · by_cases hx : x = a
          · subst hx
            simp [memRead]
          · have : ¬ e.1 = x := by omega
            simp [memRead, hx, Ne.symm hx, this]
      · rename_i hnlt hne
        simp only [memRead, ih hc.2]
        by_cases hx : x = a
        · subst hx
          have : ¬ e.1 = x := by omega
          simp [this]
        · simp [hx]

/-! ### Erase -/

/-- An erase keeps the canonical form. -/
theorem memErase_wf {dflt : Option Byte} {limit : Nat} {m : Memory} (lo hi : Nat) (hm : Memory.wf dflt limit m = true) :
    Memory.wf dflt limit (memErase lo hi m) = true := by
  induction m with
  | nil => exact hm
  | cons e m ih =>
    have hc := (memory_wf_cons ..).1 hm
    simp only [memErase, List.filter_cons] at ih ⊢
    split
    · exact (memory_wf_cons ..).2
        ⟨fun x hx => hc.1 x (List.mem_filter.1 hx).1, hc.2.1, hc.2.2.1, ih hc.2.2.2⟩
    · exact ih hc.2.2.2

/-- A read after an erase: the default in the erased range, the old byte everywhere else. -/
theorem memRead_memErase {dflt : Byte} {m : Memory} (hm : cellsRising m = true) (lo hi x : Nat) :
    memRead dflt (memErase lo hi m) x = if lo ≤ x ∧ x < hi then dflt else memRead dflt m x := by
  induction m with
  | nil => simp [memErase, memRead]
  | cons e m ih =>
    have hc := (cellsRising_cons e m).1 hm
    simp only [memErase] at ih
    simp only [memErase, List.filter_cons]
    split
    · rename_i h
      simp only [Bool.not_eq_true', Bool.and_eq_false_imp, decide_eq_true_eq, decide_eq_false_iff_not] at h
      simp only [memRead, ih hc.2]
      by_cases hx : e.1 = x
      · subst hx
        simp only [if_true]
        split
        · rename_i h2
          exact absurd h2.2 (h h2.1)
        · rfl
      · simp [hx]
    · rename_i h
      simp only [Bool.not_eq_true', Bool.and_eq_false_imp, decide_eq_true_eq, decide_eq_false_iff_not,
        Classical.not_imp, not_not] at h
      simp only [memRead, ih hc.2]
      by_cases hx : e.1 = x
      · subst hx
        simp [h.1, h.2]
      · simp [hx]

/-! ### Guest memory -/

theorem guestSize_pos : 0 < guestSize := by decide

theorem memory_wf_rising {dflt : Option Byte} {limit : Nat} {m : Memory} (hm : Memory.wf dflt limit m = true) :
    cellsRising m = true := ((memory_wf_iff ..).1 hm).1

@[simp] theorem Guest.after_cells (g : Guest) (k : Nat) : (g.after k).cells = g.cells := rfl
@[simp] theorem Guest.after_holes (g : Guest) (k : Nat) : (g.after k).holes = g.holes := rfl
@[simp] theorem Guest.after_reads (g : Guest) (k : Nat) : (g.after k).reads = g.reads + k := rfl
@[simp] theorem Guest.after_zero (g : Guest) : g.after 0 = g := rfl
@[simp] theorem Guest.after_after (g : Guest) (j k : Nat) : (g.after j).after k = g.after (j + k) := by
  simp [Guest.after, Nat.add_assoc]
@[simp] theorem Guest.after_wf (g : Guest) (k : Nat) : (g.after k).wf = g.wf := rfl
@[simp] theorem Guest.after_backed (g : Guest) (k a : Nat) : (g.after k).backed a = g.backed a := rfl
@[simp] theorem guestByte_after (g : Guest) (k a : Nat) : guestByte (g.after k) a = guestByte g a := rfl
@[simp] theorem guestWrite_holes (g : Guest) (a : Nat) (bs : List Byte) : (guestWrite g a bs).holes = g.holes := rfl
@[simp] theorem guestWrite_reads (g : Guest) (a : Nat) (bs : List Byte) : (guestWrite g a bs).reads = g.reads := rfl

/-- Where there is memory, a read returns the byte it holds (R61). -/
theorem guestAnswer_backed {g : Guest} {a : Nat} (h : g.backed a = true) : guestAnswer g a = guestByte g a := by
  simp [guestAnswer, h]

/-- With no ranges without memory, every read returns the byte held. -/
theorem guestAnswer_noHoles {g : Guest} (h : g.holes = []) (a : Nat) : guestAnswer g a = guestByte g a :=
  guestAnswer_backed (by simp [Guest.backed, h])

theorem cellsWrite_wf {m : Memory} (a : Nat) (bs : List Byte) (hm : Memory.wf none guestSize m = true) :
    Memory.wf none guestSize (cellsWrite m a bs) = true := by
  induction bs generalizing m a with
  | nil => exact hm
  | cons b bs ih => exact ih (a + 1) (memWrite_wf b hm (Nat.mod_lt _ guestSize_pos))

/-- A guest write keeps the canonical form. -/
theorem guestWrite_wf {g : Guest} (a : Nat) (bs : List Byte) (hm : g.wf = true) : (guestWrite g a bs).wf = true :=
  cellsWrite_wf a bs hm

theorem memRead_cellsWrite_other {m : Memory} (d : Byte) (a : Nat) (bs : List Byte) (x : Nat)
    (hm : Memory.wf none guestSize m = true) (hx : ∀ i < bs.length, (a + i) % guestSize ≠ x) :
    memRead d (cellsWrite m a bs) x = memRead d m x := by
  induction bs generalizing m a with
  | nil => rfl
  | cons b bs ih =>
    have h0 : x ≠ a % guestSize := fun h => hx 0 (by simp) (by simpa using h.symm)
    rw [cellsWrite, ih (a + 1) (memWrite_wf b hm (Nat.mod_lt _ guestSize_pos)),
      memRead_memWrite (by simp) (memory_wf_rising hm), if_neg h0]
    intro i hi
    have := hx (i + 1) (by simpa using hi)
    rwa [show a + (i + 1) = a + 1 + i by omega] at this

/-- A guest write leaves every byte alone that it does not store to. -/
theorem guestByte_guestWrite_other {g : Guest} (a : Nat) (bs : List Byte) (x : Nat) (hm : g.wf = true)
    (hx : ∀ i < bs.length, (a + i) % guestSize ≠ x % guestSize) : guestByte (guestWrite g a bs) x = guestByte g x :=
  memRead_cellsWrite_other _ a bs _ hm hx

theorem memRead_cellsWrite_same {m : Memory} (d : Byte) (a : Nat) (bs : List Byte) (i : Nat)
    (hm : Memory.wf none guestSize m = true) (hl : bs.length ≤ guestSize) (hi : i < bs.length) :
    memRead d (cellsWrite m a bs) ((a + i) % guestSize) = bs[i] := by
  induction bs generalizing m a i with
  | nil => simp at hi
  | cons b bs ih =>
    have hw := memWrite_wf (a := a % guestSize) b hm (Nat.mod_lt _ guestSize_pos)
    rw [cellsWrite]
    cases i with
    | zero =>
      rw [memRead_cellsWrite_other d (a + 1) bs _ hw]
      · simp [memRead_memWrite (dflt := d) (drop := none) (by simp) (memory_wf_rising hm)]
      · intro j hj
        simp only [List.length_cons] at hl
        simp only [guestSize] at *
        omega
    | succ i =>
      have := ih (a + 1) i hw (by simp at hl; omega) (by simpa using hi)
      rw [show a + (i + 1) = a + 1 + i by omega, this]
      rfl

/-- A guest write of at most the whole address space stores byte `i` at `a + i`. -/
theorem guestByte_guestWrite_same {g : Guest} (a : Nat) (bs : List Byte) (i : Nat) (hm : g.wf = true)
    (hl : bs.length ≤ guestSize) (hi : i < bs.length) : guestByte (guestWrite g a bs) (a + i) = bs[i] :=
  memRead_cellsWrite_same _ a bs i hm hl hi

/-- A write of two runs of bytes is a write of the one and then of the other. -/
theorem guestWrite_append (g : Guest) (a : Nat) (xs ys : List Byte) :
    guestWrite g a (xs ++ ys) = guestWrite (guestWrite g a xs) (a + xs.length) ys := by
  have h : ∀ (m : Memory) (a : Nat), cellsWrite m a (xs ++ ys) = cellsWrite (cellsWrite m a xs) (a + xs.length) ys := by
    induction xs with
    | nil => exact fun m a => rfl
    | cons x xs ih =>
      intro m a
      rw [List.cons_append, cellsWrite, ih, cellsWrite, List.length_cons,
        show a + 1 + xs.length = a + (xs.length + 1) by omega]
  simp [guestWrite, h]

@[simp] theorem guestRead_length (g : Guest) (a n : Nat) : (guestRead g a n).length = n := by simp [guestRead]

theorem guestRead_getElem (g : Guest) (a n i : Nat) (h : i < (guestRead g a n).length) :
    (guestRead g a n)[i] = guestAnswer g (a + i) := by simp [guestRead]

/-! ### The flash image operations (R325, R330) -/

/-- A programmed word keeps the canonical form. -/
theorem memWrite2_wf {dflt : Option Byte} {limit : Nat} {m : Memory} {a a' : Nat} (b b' : Byte)
    (hm : Memory.wf dflt limit m = true) (ha : a < limit) (ha' : a' < limit) :
    Memory.wf dflt limit (memWrite dflt (memWrite dflt m a b) a' b') = true :=
  memWrite_wf b' (memWrite_wf b hm ha) ha'

end Sys2Proof.Machine
end

