-- ==== Sys2Proof/Laws/Ops.lean ====
section
/-! SUPPORT. What each shared operation can do, said once: the outcomes of an access and of a ticker step, the fatal
stop, delivery, acknowledge, trigger, the tick walk's one line, the collaborators' answers. -/

namespace Sys2Proof.Machine

/-! ### Outcomes -/

@[simp] theorem answer_eq_next (v : Word) (s t : State) : answer v s = .next t ↔ t = s.withRet (some v) := by
  simp [answer, eq_comm]

@[simp] theorem wrote_eq_next (s t : State) : wrote s = .next t ↔ t = s.withRet (some 0) := by
  simp [wrote, eq_comm]

/-- A step that found no violation is its effect. -/
theorem orFatal_none {s t : State} (h : t.fatal = none) : orFatal s t = t := by simp [orFatal, h]

/-- A step that found a violation changes nothing but `fatal` (R403). -/
theorem orFatal_some {s t : State} {r : FatalReason} (h : t.fatal = some r) : orFatal s t = raiseFatal r s := by
  simp [orFatal, h]

/-- A step of the ticker (R370, R403). -/
theorem tickerStep_eq_next (f : State → State) (s t : State) :
    tickerStep f s = .next t ↔ s.agents.cpuHalted = false ∧ s.fatal = none ∧ t = orFatal s (f s) := by
  unfold tickerStep
  cases h1 : s.agents.cpuHalted <;> cases h2 : s.fatal <;> simp [eq_comm]

/-! ### Lines -/

theorem lineAt_modLine (id j : Nat) (f : Line → Line) (s : State) (h : id < s.ic.line.length) :
    lineAt (modLine id f s) j = if id = j then f (lineAt s id) else lineAt s j := by
  simp only [lineAt, modLine, State.withIc_ic, List.getD_eq_getElem?_getD, List.getElem?_modify]
  by_cases hj : id = j
  · subst hj
    simp [List.getElem?_eq_getElem h]
  · simp [hj]

@[simp] theorem modLine_ic_active (id : Nat) (f : Line → Line) (s : State) :
    (modLine id f s).ic.active = s.ic.active := rfl

@[simp] theorem modLine_ic_irqLine (id : Nat) (f : Line → Line) (s : State) :
    (modLine id f s).ic.irqLine = s.ic.irqLine := rfl

@[simp] theorem modLine_length (id : Nat) (f : Line → Line) (s : State) :
    (modLine id f s).ic.line.length = s.ic.line.length := by simp [modLine]

@[simp] theorem setSched_active (id : Nat) (d : Word) (s : State) : (setSched id d s).ic.active = s.ic.active := rfl

@[simp] theorem setSched_irqLine (id : Nat) (d : Word) (s : State) :
    (setSched id d s).ic.irqLine = s.ic.irqLine := rfl

@[simp] theorem setSched_length (id : Nat) (d : Word) (s : State) :
    (setSched id d s).ic.line.length = s.ic.line.length := modLine_length ..

@[simp] theorem setEnabled_active (id : Nat) (e : Bool) (s : State) :
    (setEnabled id e s).ic.active = s.ic.active := rfl

@[simp] theorem setEnabled_irqLine (id : Nat) (e : Bool) (s : State) :
    (setEnabled id e s).ic.irqLine = s.ic.irqLine := rfl

@[simp] theorem setEnabled_length (id : Nat) (e : Bool) (s : State) :
    (setEnabled id e s).ic.line.length = s.ic.line.length := modLine_length ..

/-! ### Delivery, acknowledge, trigger -/

/-- A delivery (R141): the line is in service with the mask before, the CPU line is asserted once. -/
theorem deliver_active (id : Nat) (s : State) : (deliver id s).ic.active = some ⟨id, enabledMask s⟩ := by
  unfold deliver osRearm
  dsimp only
  split <;> [split; skip] <;> rfl

@[simp] theorem deliver_irqLine (id : Nat) (s : State) : (deliver id s).ic.irqLine = true := by
  unfold deliver osRearm
  dsimp only
  split <;> [split; skip] <;> rfl

@[simp] theorem deliver_calls (id : Nat) (s : State) : (deliver id s).calls = .raiseIrq :: s.calls := by
  unfold deliver osRearm
  dsimp only
  split <;> [split; skip] <;> rfl

@[simp] theorem deliver_length (id : Nat) (s : State) : (deliver id s).ic.line.length = s.ic.line.length := by
  unfold deliver osRearm osArm
  dsimp only
  split <;> [split; skip] <;> simp

/-- What a delivery of a line other than the OS timer's is (R141). -/
theorem deliver_other {id : Nat} {s : State} (h : id ≠ s.cfg.osTimerIrq.toNat) :
    deliver id s = emit .raiseIrq (s.withIc
      { line := s.ic.line.modify id (fun l => { l with enabled := false }), active := some ⟨id, enabledMask s⟩,
        irqLine := true }) := by
  simp [deliver, h]

/-- The acknowledge (R145). -/
theorem acknowledge_ic (s : State) : (acknowledge s).ic = { s.ic with active := none, irqLine := false } := rfl

@[simp] theorem acknowledge_calls (s : State) : (acknowledge s).calls = .lowerIrq :: s.calls := rfl

/-- Everything `trigger` can do (R142). -/
theorem trigger_cases (id d : Word) (s : State) :
    (s.cfg.maxIrq ≤ id.toNat ∧ trigger id d s = raiseFatal (.irqIdOutOfRange id) s) ∨
    (id.toNat < s.cfg.maxIrq ∧ d = 0 ∧ (lineAt s id.toNat).enabled = true ∧ s.ic.active = none ∧
      trigger id d s = deliver id.toNat s) ∨
    (id.toNat < s.cfg.maxIrq ∧ (d ≠ 0 ∨ (lineAt s id.toNat).enabled = false ∨ s.ic.active ≠ none) ∧
      trigger id d s = setSched id.toNat (atLeastOne d) s) := by
  by_cases h1 : id.toNat < s.cfg.maxIrq
  · by_cases h2 : d = 0 ∧ deliverable s id.toNat = true
    · have h3 := h2.2
      simp only [deliverable, Bool.and_eq_true, Option.isNone_iff_eq_none] at h3
      exact .inr (.inl ⟨h1, h2.1, h3.1, h3.2, by rw [trigger, if_pos h1, if_pos h2]⟩)
    · refine .inr (.inr ⟨h1, ?_, by rw [trigger, if_pos h1, if_neg h2]⟩)
      by_contra h3
      simp only [not_or, not_not, Bool.not_eq_false] at h3
      exact h2 ⟨h3.1, by simp [deliverable, h3.2.1, h3.2.2]⟩
  · exact .inl ⟨by omega, by rw [trigger, if_neg h1]⟩

/-- A trigger of one line leaves the countdown of every other (R141, R142). -/
theorem trigger_sched_other {id d : Word} {s : State} {j : Nat} (h : j ≠ id.toNat) :
    (lineAt (trigger id d s) j).sched = (lineAt s j).sched := by
  have other : ∀ (l : List Line) (f : Line → Line), (l.modify id.toNat f)[j]? = l[j]? :=
    fun l f => List.getElem?_modify_ne _ _ (Ne.symm h)
  obtain ⟨-, ht⟩ | ⟨-, -, -, -, ht⟩ | ⟨-, -, ht⟩ := trigger_cases id d s
  · rw [ht]
    rfl
  · rw [ht]
    unfold deliver osRearm osArm
    dsimp only
    split
    · rename_i os
      split <;> simp [lineAt, setSched, modLine, ← os, other]
    · simp [lineAt, other]
  · rw [ht]
    simp [lineAt, setSched, modLine, other]

/-- Everything one line of the tick walk can do (R149). -/
theorem walkLine_cases (s : State) (id : Nat) :
    (1 < (lineAt s id).sched ∧ walkLine s id = setSched id ((lineAt s id).sched - 1) s) ∨
    ((lineAt s id).sched = 1 ∧ (lineAt s id).enabled = true ∧ s.ic.active = none ∧
      walkLine s id = deliver id (setSched id 0 s)) ∨
    (¬ 1 < (lineAt s id).sched ∧
      ((lineAt s id).sched ≠ 1 ∨ (lineAt s id).enabled = false ∨ s.ic.active ≠ none) ∧ walkLine s id = s) := by
  by_cases h1 : 1 < (lineAt s id).sched
  · exact .inl ⟨h1, by rw [walkLine, if_pos h1]⟩
  · by_cases h2 : (lineAt s id).sched = 1 ∧ deliverable s id = true
    · have h3 := h2.2
      simp only [deliverable, Bool.and_eq_true, Option.isNone_iff_eq_none] at h3
      exact .inr (.inl ⟨h2.1, h3.1, h3.2, by rw [walkLine, if_neg h1, if_pos h2]⟩)
    · refine .inr (.inr ⟨h1, ?_, by rw [walkLine, if_neg h1, if_neg h2]⟩)
      by_contra h3
      simp only [not_or, not_not, Bool.not_eq_false, ne_eq] at h3
      exact h2 ⟨h3.1, by simp [deliverable, h3.2.1, h3.2.2]⟩

/-! ### Trigger steps -/

/-- A trigger step with a call owed (R83). -/
theorem triggerStep_cons {s : State} {q : TriggerCall} {rest : List TriggerCall} (h : s.agents.cpuQueue = q :: rest) :
    triggerStep s = .next (orFatal s (trigger q.id q.delay (s.withAgents { s.agents with cpuQueue := rest }))) := by
  simp [triggerStep, h]

/-! ### The collaborators' answers change only their script and the record of calls -/

theorem sdReadByte_snd (s : State) : ∃ e, (sdReadByte s).2 = s.withEnv e := by
  unfold sdReadByte
  split <;> exact ⟨_, rfl⟩

theorem sdReadBytes_snd (n : Nat) (s : State) : ∃ e, (sdReadBytes n s).2 = s.withEnv e := by
  induction n generalizing s with
  | zero => exact ⟨s.env, rfl⟩
  | succ n ih =>
    obtain ⟨e, he⟩ := sdReadByte_snd s
    obtain ⟨e', he'⟩ := ih (sdReadByte s).2
    exact ⟨e', by rw [sdReadBytes, he', he]; rfl⟩

theorem sdReadBytes_length (n : Nat) (s : State) : (sdReadBytes n s).1.length = n := by
  induction n generalizing s with
  | zero => rfl
  | succ n ih => simp [sdReadBytes, ih]

theorem sdWriteBytes_eq (bs : List Byte) (s : State) :
    sdWriteBytes bs s = s.withCalls ((bs.map Call.sdWriteByte).reverse ++ s.calls) := by
  induction bs generalizing s with
  | nil => rfl
  | cons b bs ih =>
    simp only [sdWriteBytes, ih, List.map_cons, List.reverse_cons, List.append_assoc]
    rfl

theorem cfDataReady_snd (s : State) : ∃ e, (cfDataReady s).2 = s.withEnv e := by
  unfold cfDataReady
  split <;> exact ⟨_, rfl⟩

theorem cfReadByte_snd (s : State) : ∃ e, (cfReadByte s).2 = s.withEnv e := by
  unfold cfReadByte
  split <;> exact ⟨_, rfl⟩

theorem cfReadBytes_snd (n : Nat) (s : State) : ∃ e, (cfReadBytes n s).2 = s.withEnv e := by
  induction n generalizing s with
  | zero => exact ⟨s.env, rfl⟩
  | succ n ih =>
    obtain ⟨e, he⟩ := cfReadByte_snd s
    obtain ⟨e', he'⟩ := ih (cfReadByte s).2
    exact ⟨e', by rw [cfReadBytes, he', he]; rfl⟩

theorem cfReadBytes_length (n : Nat) (s : State) : (cfReadBytes n s).1.length = n := by
  induction n generalizing s with
  | zero => rfl
  | succ n ih => simp [cfReadBytes, ih]

theorem cfWriteBytes_eq (bs : List Byte) (s : State) :
    cfWriteBytes bs s = s.withCalls ((bs.map Call.cfWriteByte).reverse ++ s.calls) := by
  induction bs generalizing s with
  | nil => rfl
  | cons b bs ih =>
    simp only [cfWriteBytes, ih, List.map_cons, List.reverse_cons, List.append_assoc]
    rfl

theorem sdDoCommand_snd (cmd : BitVec 6) (arg : BitVec 40) (s : State) :
    ∃ e, (sdDoCommand cmd arg s).2 = (emit (.sdCommand cmd arg) s).withEnv e := by
  unfold sdDoCommand
  dsimp only
  split <;> exact ⟨_, rfl⟩

theorem ideRead_snd (off : Nat) (s : State) : ∃ e, (ideRead off s).2 = (emit (.ideRead off) s).withEnv e := by
  unfold ideRead
  dsimp only
  split <;> exact ⟨_, rfl⟩

theorem ideSignalled_snd (s : State) : ∃ e, (ideSignalled s).2 = s.withEnv e := by
  unfold ideSignalled
  split <;> exact ⟨_, rfl⟩

theorem ataIrqEnabled_snd (s : State) : ∃ e, (ataIrqEnabled s).2 = s.withEnv e := by
  unfold ataIrqEnabled
  split <;> exact ⟨_, rfl⟩

/-! ### Banks -/

theorem bankAt_modBank (b j : Nat) (f : FlashBank → FlashBank) (s : State) (h : b < s.flash.length) :
    bankAt (modBank b f s) j = if b = j then f (bankAt s b) else bankAt s j := by
  simp only [bankAt, modBank, State.withFlash_flash, List.getD_eq_getElem?_getD, List.getElem?_modify]
  by_cases hj : b = j
  · subst hj
    simp [List.getElem?_eq_getElem h]
  · simp [hj]

@[simp] theorem modBank_length (b : Nat) (f : FlashBank → FlashBank) (s : State) :
    (modBank b f s).flash.length = s.flash.length := by simp [modBank]

end Sys2Proof.Machine
end

