-- ==== Sys2Proof/Laws/Step.lean ====
section
/-! SUPPORT. What one step can do, said once: a step is an operation run, a trigger step, a store of the CPU
collaborator or a change of its program counter. -/

namespace Sys2Proof.Machine

/-- Everything a trigger step can do (R83). -/
theorem triggerStep_eq_next {s t : State} (h : triggerStep s = .next t) :
    ∃ q rest, s.agents.cpuQueue = q :: rest ∧
      t = orFatal s (trigger q.id q.delay (s.withAgents { s.agents with cpuQueue := rest })) := by
  unfold triggerStep at h
  split at h
  · cases h
  · rename_i q rest hq
    exact ⟨q, rest, hq, by cases h; rfl⟩

/-- Everything a step that makes a move can do (R81, R83, R84, R403). -/
theorem step_cases {s t : State} (h : step s = .next t) :
    s.fatal = none ∧
      ((∃ bytes i, nextEvent s = .request bytes ∧ decode s.view bytes = .ok i ∧
          (agentOf i = .cpu → s.agents.cpuQueue = [] ∧ s.agents.cpuHalted = false) ∧ exec i (popEvent s) = .next t) ∨
        (∃ q rest u, s.agents.cpuQueue = q :: rest ∧ (u = s ∨ u = popEvent s) ∧
          t = orFatal u (trigger q.id q.delay (u.withAgents { u.agents with cpuQueue := rest }))) ∨
        (∃ addr bytes, nextEvent s = .guestStore addr bytes ∧
          t = (popEvent s).withMem (guestWrite s.mem addr.toNat bytes)) ∨
        (∃ pc, nextEvent s = .cpuPc pc ∧ t = (popEvent s).withEnv { s.env with pc := pc })) := by
  unfold step at h
  split at h
  · cases h
  · rename_i hf
    refine ⟨hf, ?_⟩
    split at h
    · obtain ⟨q, rest, hq, ht⟩ := triggerStep_eq_next h
      exact .inr (.inl ⟨q, rest, popEvent s, hq, .inr rfl, ht⟩)
    · rename_i addr bytes he
      cases h
      exact .inr (.inr (.inl ⟨addr, bytes, he, rfl⟩))
    · rename_i pc he
      cases h
      exact .inr (.inr (.inr ⟨pc, he, rfl⟩))
    · rename_i bytes he
      split at h
      · cases h
      · rename_i i hd
        unfold runInstr at h
        split at h
        · rename_i ha
          split at h
          · rename_i hq
            split at h
            · cases h
            · rename_i hh
              exact .inl ⟨bytes, i, he, hd, fun _ => ⟨by simpa using hq, by simpa using hh⟩, h⟩
          · obtain ⟨q, rest, hq, ht⟩ := triggerStep_eq_next h
            exact .inr (.inl ⟨q, rest, s, hq, .inl rfl, ht⟩)
        · rename_i ha
          exact .inl ⟨bytes, i, he, hd, fun hc => absurd hc ha, h⟩

/-! ### Flash cycles -/

/-- A write to a bank changes that bank, and makes at most one call (R310, R327). -/
theorem flashCycle_shape (b off : Nat) (v : Word) (s : State) :
    ∃ f c, flashCycle b off v s = (modBank b f s).withCalls c := by
  unfold flashCycle
  split
  all_goals first
    | exact ⟨_, s.calls, rfl⟩
    | exact ⟨_, _, rfl⟩

/-- A read of a bank changes at most that bank (R312, R328, R330). -/
theorem flashReadAccess_shape (b off : Nat) (s : State) :
    ∃ f v, flashReadAccess b off s = answer v (modBank b f s) := by
  have hid : modBank b (fun x => x) s = s := by
    have : ∀ (l : List FlashBank) (n : Nat), l.modify n (fun x => x) = l := by
      intro l n
      apply List.ext_getElem?
      intro i
      rw [List.getElem?_modify]
      cases l[i]? <;> simp
    simp only [modBank, this]
    rfl
  unfold flashReadAccess
  split
  · exact ⟨fun x => x, _, by rw [hid]⟩
  · unfold busyRead
    split
    · exact ⟨_, _, rfl⟩
    · exact ⟨_, _, rfl⟩
  · exact ⟨fun x => x, _, by rw [hid]⟩

/-! ### The IDE abstraction -/

/-- Everything a completion signal can do (R281). -/
theorem ideCompleted_cases (s : State) :
    ∃ e, ideCompleted s = s.withEnv e ∨
      ideCompleted s = queueTrigger s.cfg.cfIrq 0 ((s.withEnv e).withCf { s.cf with irqPending := true }) := by
  obtain ⟨e, he⟩ := ataIrqEnabled_snd s
  refine ⟨e, ?_⟩
  unfold ideCompleted
  dsimp only
  rw [he]
  split
  · exact .inr rfl
  · exact .inl rfl

/-- Everything that can follow a forwarded access (R280, R281). -/
theorem afterIde_cases (s : State) :
    ∃ e, afterIde s = s.withEnv e ∨
      afterIde s = queueTrigger s.cfg.cfIrq 0 ((s.withEnv e).withCf { s.cf with irqPending := true }) := by
  obtain ⟨e, he⟩ := ideSignalled_snd s
  unfold afterIde
  dsimp only
  rw [he]
  split
  · obtain ⟨e', h⟩ := ideCompleted_cases (s.withEnv e)
    exact ⟨e', h⟩
  · exact ⟨e, .inl rfl⟩

/-! ### The SDIO controller -/

/-- Everything an interrupt hand-over can do (R271). -/
theorem sdTryIrq_cases (s : State) :
    sdTryIrq s = s ∨ (s.sd.irqPending = true ∧ s.sd.irqEn = true ∧
      sdTryIrq s = (queueTrigger s.cfg.sdIrq 0 s).withSd { s.sd with irqPending := false }) := by
  unfold sdTryIrq
  split
  · rename_i h
    simp only [Bool.and_eq_true] at h
    exact .inr ⟨h.1, h.2, rfl⟩
  · exact .inl rfl

/-- Everything a data phase can do (R266). -/
theorem sdTryData_cases (s : State) :
    sdTryData s = s ∨ ∃ o, s.sd.outstanding = some o ∧ s.sd.dmaEnabled = true ∧
      ((o.dir = .read ∧ ∃ bs e, bs.length = sdBytes s.sd.dmaCount ∧
        sdTryData s = ((s.withEnv e).withMem (guestWrite s.mem s.sd.dmaAddr.toNat bs)).withSd
          (sdPhaseDone s.cfg o s.sd)) ∨
      (o.dir = .write ∧ ∃ c, sdTryData s =
        ((s.withCalls c).withMem (s.mem.after 1)).withSd (sdPhaseDone s.cfg o s.sd))) := by
  unfold sdTryData
  split
  · exact .inl rfl
  · rename_i o ho
    split
    · rename_i hd
      refine .inr ⟨o, ho, hd, ?_⟩
      unfold sdMove
      cases hdir : o.dir with
      | read =>
        obtain ⟨e, he⟩ := sdReadBytes_snd (sdBytes s.sd.dmaCount) s
        refine .inl ⟨rfl, (sdReadBytes (sdBytes s.sd.dmaCount) s).1, e, sdReadBytes_length .., ?_⟩
        dsimp only
        rw [he]
      | write =>
        exact .inr ⟨rfl, _, by dsimp only; rw [sdWriteBytes_eq]⟩
    · exact .inl rfl

/-- What a command changes outside the SDIO controller: the backend's answers and the record of calls (R264, R265). -/
theorem sdCommand_shape (s : State) :
    ∃ c e r, sdCommand s = ((s.withCalls c).withEnv e).withSd
      (sdCompleted s.cfg (sdCmd (sdTokenOf s)) r (sdCleared s.sd)) := by
  unfold sdCommand
  dsimp only
  obtain ⟨e, he⟩ := sdDoCommand_snd (sdCmd (sdTokenOf s)) (sdArg (sdTokenOf s))
    ((sdLogOutstanding s).withSd (sdCleared s.sd))
  rw [he]
  unfold sdLogOutstanding
  split
  · exact ⟨_, e, _, rfl⟩
  · exact ⟨_, e, _, rfl⟩

/-! ### The CF slice -/

/-- Everything one word of a CF transfer can do (R287). -/
theorem cfMoveWord_cases (p : CfDma) (s : State) :
    (p.dir = .read ∧ ∃ bs e, bs.length = 4 ∧
      cfMoveWord p s = (s.withEnv e).withMem (guestWrite s.mem (cfWordAddr p) bs)) ∨
    (p.dir = .write ∧ ∃ c, cfMoveWord p s = (s.withCalls c).withMem (s.mem.after 1)) := by
  unfold cfMoveWord
  cases hdir : p.dir with
  | read =>
    obtain ⟨e, he⟩ := cfReadBytes_snd 4 s
    refine .inl ⟨rfl, (cfReadBytes 4 s).1, e, cfReadBytes_length .., ?_⟩
    dsimp only
    rw [he]
  | write =>
    exact .inr ⟨rfl, _, by dsimp only; rw [cfWriteBytes_eq]⟩

/-- What one word changes: guest memory, the backend's answers, the record of calls (R287). -/
theorem cfMoveWord_shape (p : CfDma) (s : State) :
    ∃ m e c, cfMoveWord p s = ((s.withMem m).withEnv e).withCalls c := by
  rcases cfMoveWord_cases p s with ⟨_, bs, e, _, h⟩ | ⟨_, c, h⟩
  · exact ⟨guestWrite s.mem (cfWordAddr p) bs, e, s.calls, by rw [h]; rfl⟩
  · exact ⟨s.mem.after 1, s.env, c, by rw [h]; rfl⟩

/-- What a slice's loop changes outside the transfer: guest memory, the backend's answers, the record of calls. -/
theorem cfSliceLoop_shape (k : Nat) (p : CfDma) (s : State) :
    ∃ m e c, (cfSliceLoop k p s).2 = ((s.withMem m).withEnv e).withCalls c := by
  induction k generalizing p s with
  | zero => exact ⟨s.mem, s.env, s.calls, rfl⟩
  | succ k ih =>
    unfold cfSliceLoop
    split
    · obtain ⟨e, he⟩ := cfDataReady_snd s
      dsimp only
      rw [he]
      split
      · obtain ⟨m, e', c, h⟩ := ih { p with done := p.done + 1 } (cfMoveWord p (s.withEnv e))
        obtain ⟨m2, e2, c2, h2⟩ := cfMoveWord_shape p (s.withEnv e)
        exact ⟨m, e', c, by rw [h, h2]; simp only [State.withMem, State.withEnv, State.withCalls]⟩
      · exact ⟨s.mem, e, s.calls, rfl⟩
    · exact ⟨s.mem, s.env, s.calls, rfl⟩

/-- A slice's loop keeps a transfer's command and moves no more words than it has (R287). -/
theorem cfSliceLoop_transfer (k : Nat) (p : CfDma) (s : State) (h : p.done ≤ p.words) :
    ∃ d, p.done ≤ d ∧ d ≤ p.words ∧ (cfSliceLoop k p s).1 = { p with done := d } := by
  induction k generalizing p s with
  | zero => exact ⟨p.done, BitVec.le_refl _, h, rfl⟩
  | succ k ih =>
    unfold cfSliceLoop
    split
    · rename_i hlt
      dsimp only
      split
      · have h1 : p.done ≤ p.done + 1 := by bv_omega
        have h2 : p.done + 1 ≤ p.words := by bv_omega
        obtain ⟨d, hd1, hd2, hd⟩ := ih { p with done := p.done + 1 } (cfMoveWord p (cfDataReady s).2) h2
        exact ⟨d, BitVec.le_trans h1 hd1, hd2, hd⟩
      · exact ⟨p.done, BitVec.le_refl _, h, rfl⟩
    · exact ⟨p.done, BitVec.le_refl _, h, rfl⟩

end Sys2Proof.Machine
end

