-- ==== Sys2Proof/Laws/Transfers.lean ====
section
/-! SUPPORT. What the pieces of a transfer do, said once: a block of a DMA copy (R213), the loop of a CF slice (R287), a
row of a plane as a composite reads it (R358). -/

namespace Sys2Proof.Laws

open Sys2Proof.Machine

/-! ### DMA -/

/-- Everything one block of a copy does (R213): its bytes are those the read returned, every other byte stays. -/
theorem dmaBlockCopy_spec {block src dst n j : Nat} {g : Guest} (hn : n < 2 ^ 32) (hg : g.wf = true) :
    (dmaBlockCopy block src dst n g j).wf = true ∧ (dmaBlockCopy block src dst n g j).holes = g.holes ∧
      (dmaBlockCopy block src dst n g j).reads = g.reads + 1 ∧
      (∀ i < block, j * block + i < n →
        guestByte (dmaBlockCopy block src dst n g j) (dst + (j * block + i)) =
          guestAnswer g (src + (j * block + i))) ∧
      ∀ x, (∀ i < block, j * block + i < n → (dst + (j * block + i)) % 2 ^ 32 ≠ x % 2 ^ 32) →
        guestByte (dmaBlockCopy block src dst n g j) x = guestByte g x := by
  have hlen : (guestRead g (src + j * block) (min block (n - j * block))).length = min block (n - j * block) := by simp
  refine ⟨guestWrite_wf _ _ hg, rfl, rfl, fun i hi hin => ?_, fun x hx => ?_⟩
  · have := guestByte_guestWrite_same (g := g.after 1) (dst + j * block)
      (guestRead g (src + j * block) (min block (n - j * block))) i hg (by rw [hlen]; simp only [guestSize]; omega)
      (by rw [hlen]; omega)
    rw [guestRead_getElem] at this
    simpa [dmaBlockCopy, Nat.add_assoc] using this
  · have := guestByte_guestWrite_other (g := g.after 1) (dst + j * block)
      (guestRead g (src + j * block) (min block (n - j * block))) x hg
      (fun i hi => by
        rw [hlen] at hi
        have := hx i (by omega) (by omega)
        simpa [guestSize, Nat.add_assoc] using this)
    simpa [dmaBlockCopy] using this

/-! ### The CF slice -/

/-- Words moved, added to the words done, stay a number of words. -/
theorem done_add (p : CfDma) (m : Nat) (hd : p.done ≤ p.words) (hm : m ≤ p.words.toNat - p.done.toNat) :
    (p.done + BitVec.ofNat 32 m).toNat = p.done.toNat + m := by
  have h1 := p.words.isLt
  have h2 : p.done.toNat ≤ p.words.toNat := hd
  rw [BitVec.toNat_add, BitVec.toNat_ofNat, Nat.mod_eq_of_lt (a := m) (by omega), Nat.mod_eq_of_lt (by omega)]

theorem done_succ (p : CfDma) (h : p.done < p.words) : (p.done + 1).toNat = p.done.toNat + 1 := by
  have h' : p.done.toNat < p.words.toNat := h
  exact done_add p 1 (BitVec.le_of_lt h) (by omega)

/-- Everything a slice's loop can do (R287): it moves some number of words, at most its bound and at most the words
left, and changes guest memory, the backend's answers and the record of calls alone; of guest memory it changes only the
bytes of the words moved. -/
theorem cfSliceLoop_cases (k : Nat) (p : CfDma) (s : State) (hd : p.done ≤ p.words) :
    ∃ m g e c, m ≤ min k (p.words.toNat - p.done.toNat) ∧
      cfSliceLoop k p s = ({ p with done := p.done + BitVec.ofNat 32 m }, ((s.withMem g).withEnv e).withCalls c) ∧
      (p.dir = .read → c = s.calls ∧ g = { s.mem with cells := g.cells }) ∧
      (p.dir = .write → g = s.mem.after m ∧ c.length = s.calls.length + 4 * m) ∧
      (s.mem.wf = true → ∀ x, (∀ i < 4 * m, (cfWordAddr p + i) % 2 ^ 32 ≠ x % 2 ^ 32) →
        guestByte g x = guestByte s.mem x) := by
  induction k generalizing p s with
  | zero =>
    exact ⟨0, s.mem, s.env, s.calls, by simp, by simp [cfSliceLoop]; rfl, fun _ => ⟨rfl, rfl⟩,
      fun _ => ⟨by simp, by simp⟩, fun _ _ _ => rfl⟩
  | succ k ih =>
    unfold cfSliceLoop
    split
    · rename_i hlt
      have hlt' : p.done.toNat < p.words.toNat := hlt
      have h1 := done_succ p hlt
      obtain ⟨e, he⟩ := cfDataReady_snd s
      dsimp only
      rw [he]
      split
      · have hd' : p.done + 1 ≤ p.words := by
          show (p.done + 1).toNat ≤ p.words.toNat
          omega
        obtain ⟨m, g, e', c, hm, hl, hr, hw, hf⟩ := ih { p with done := p.done + 1 } (cfMoveWord p (s.withEnv e)) hd'
        simp only [h1] at hm
        refine ⟨m + 1, g, e', c, by omega, ?_, fun hdir => ?_, fun hdir => ?_, fun hwf x hx => ?_⟩
        · rw [hl]
          refine Prod.ext ?_ ?_
          · simp only [CfDma.mk.injEq, true_and]
            apply BitVec.eq_of_toNat_eq
            have := done_add { p with done := p.done + 1 } m hd' (by simp only [h1]; omega)
            simp only [h1] at this
            rw [done_add p (m + 1) hd (by omega), this]
            omega
          · obtain ⟨m2, e2, c2, h2⟩ := cfMoveWord_shape p (s.withEnv e)
            simp only [h2]
            simp only [State.withMem, State.withEnv, State.withCalls]
        · obtain ⟨r1, r2⟩ := hr hdir
          obtain ⟨e2, he2⟩ := cfReadBytes_snd 4 (s.withEnv e)
          refine ⟨by rw [r1]; simp [cfMoveWord, hdir, he2], ?_⟩
          rw [r2]
          simp [cfMoveWord, hdir, guestWrite, State.withMem, State.withEnv]
        · obtain ⟨w1, w2⟩ := hw hdir
          rw [w1, w2]
          simp [cfMoveWord, hdir, cfWriteBytes_eq, State.withCalls, State.withMem, State.withEnv, Nat.add_comm 1 m]
          omega
        · have hword : ∀ i < 4, (cfWordAddr p + i) % 2 ^ 32 ≠ x % 2 ^ 32 := fun i hi => hx i (by omega)
          have hrest : ∀ i < 4 * m, (cfWordAddr { p with done := p.done + 1 } + i) % 2 ^ 32 ≠ x % 2 ^ 32 := by
            intro i hi
            have := hx (4 + i) (by omega)
            simp only [cfWordAddr, h1] at this ⊢
            rwa [show p.addr.toNat + 4 * (p.done.toNat + 1) + i = p.addr.toNat + 4 * p.done.toNat + (4 + i) by omega]
          obtain ⟨_, bs, e2, hlen, h2⟩ | ⟨_, c2, h2⟩ := cfMoveWord_cases p (s.withEnv e)
          · rw [h2] at hf
            refine (hf (guestWrite_wf _ _ hwf) x hrest).trans ?_
            exact guestByte_guestWrite_other (cfWordAddr p) bs x hwf (fun i hi => hword i (by omega))
          · rw [h2] at hf
            exact hf hwf x hrest
      · exact ⟨0, s.mem, e, s.calls, by simp, by simp; rfl, fun _ => ⟨rfl, rfl⟩, fun _ => ⟨by simp, by simp⟩,
          fun _ _ _ => rfl⟩
    · exact ⟨0, s.mem, s.env, s.calls, by simp, by simp; rfl, fun _ => ⟨rfl, rfl⟩, fun _ => ⟨by simp, by simp⟩,
        fun _ _ _ => rfl⟩

/-! ### Planes -/

theorem planeRows_getElem? {g : Guest} {a : Word} {pitch rows y : Nat} (hy : y < rows) :
    (planeRows g a pitch rows)[y]? = some (guestRead (g.after y) (a.toNat + y * pitch) pitch) := by
  simp [planeRows, hy]

/-- A byte of a plane as a composite reads it (R358, R359). -/
theorem byteOf_planeRows {g : Guest} {a : Word} {pitch rows y x : Nat} (hy : y < rows) (hx : x < pitch) :
    byteOf ((planeRows g a pitch rows).getD y []) x = guestAnswer (g.after y) (a.toNat + y * pitch + x) := by
  rw [List.getD_eq_getElem?_getD, planeRows_getElem? hy]
  simp [byteOf, List.getD_eq_getElem?_getD, guestRead, hx]

end Sys2Proof.Laws
end

