-- ==== Sys2Proof/Laws/WellFormed.lean ====
section
/-! SUPPORT. What the checks of a configuration say: handler order (R121), one address per register and one register
per address (R91, R92), disjoint windows. -/

namespace Sys2Proof.Laws

open Sys2Proof

/-- No later range of the list lies inside an earlier one (R121). -/
theorem handlersOrdered_iff (l : List Handler) :
    handlersOrdered l = true ↔ l.Pairwise (fun h g => ¬ (h.lo ≤ g.lo ∧ g.hi ≤ h.hi)) := by
  induction l with
  | nil => simp [handlersOrdered]
  | cons h l ih =>
    simp only [handlersOrdered, Handler.contains, Bool.and_eq_true, List.all_eq_true, Bool.not_eq_true',
      ← Bool.not_eq_true, decide_eq_true_eq, ih, List.pairwise_cons]

/-- The addresses of the list rise: no two entries share one (R91). -/
theorem addrMapRising_iff (l : List (RegName × Word)) :
    addrMapRising l = true ↔ l.Pairwise (fun e f => e.2 < f.2) := by
  induction l with
  | nil => simp [addrMapRising]
  | cons e l ih =>
    cases l with
    | nil => simp [addrMapRising]
    | cons f l =>
      simp only [addrMapRising, Bool.and_eq_true, decide_eq_true_eq, ih, List.pairwise_cons, List.mem_cons,
        forall_eq_or_imp]
      constructor
      · rintro ⟨h1, h2, h3⟩
        exact ⟨⟨h1, fun x hx => BitVec.lt_trans h1 (h2 x hx)⟩, h2, h3⟩
      · rintro ⟨⟨h1, _⟩, h2, h3⟩
        exact ⟨h1, h2, h3⟩

/-! ### The registers of R92 -/

/-- The register of a code. -/
def RegName.ofCode (n : Nat) : RegName :=
  match n % 64 with
  | 0 => .icCurrent
  | 1 => .icEnable
  | 2 => .icDisable (n / 64)
  | 3 => .clock
  | 4 => .tmrCtrl (n / 64)
  | 5 => .tmrReload (n / 64)
  | 6 => .tmrValue (n / 64)
  | 7 => .hptCmp (n / 64)
  | 8 => .hptCtrl (n / 64)
  | 9 => .hptStatus
  | 10 => .dmaSrc (n / 64)
  | 11 => .dmaDst (n / 64)
  | 12 => .dmaCount (n / 64)
  | 13 => .dmaCtrl (n / 64)
  | 14 => .edmCtrl (n / 64)
  | 15 => .edm .addr (n / 64)
  | 16 => .edm .flags (n / 64)
  | 17 => .edm .sizeA (n / 64)
  | 18 => .edm .offA (n / 64)
  | 19 => .edm .sizeB (n / 64)
  | 20 => .edm .offB (n / 64)
  | 21 => .edm .sizeN (n / 64)
  | 22 => .edm .offN (n / 64)
  | 23 => .edm .byteOff (n / 64)
  | 24 => .sdCmdLo
  | 25 => .sdCmdHi
  | 26 => .sdCmdFlags
  | 27 => .sdResp (n / 64)
  | 28 => .sdStatus
  | 29 => .sdDmaAddr
  | 30 => .sdDmaCount
  | 31 => .sdDmaProgress
  | 32 => .sdDmaCtrl
  | 33 => .sdIrqEn
  | 34 => .cfIntStatus
  | 35 => .cfDmaAddr
  | 36 => .cfDmaCount
  | 37 => .cfDmaEn
  | 38 => .cfDmaCtrl
  | 39 => .pal4 (n / 64)
  | 40 => .pal8 (n / 64)
  | 41 => .bmpAddr
  | _ => .yuvAddr

theorem RegName.ofCode_code (r : RegName) : RegName.ofCode r.code = r := by
  cases r with
  | edm q ch => cases q <;> simp [RegName.code, EdmacReg.code, RegName.ofCode, Nat.add_mul_div_left]
  | _ => simp [RegName.code, RegName.ofCode, Nat.add_mul_div_left]

/-- No two registers have one code. -/
theorem RegName.code_injective : Function.Injective RegName.code :=
  Function.LeftInverse.injective RegName.ofCode_code

/-- The named registers of a configuration are those whose instance exists (R92). -/
theorem mem_registers (c : Cfg) (r : RegName) : r ∈ c.registers ↔ r.present c = true := by
  cases r with
  | edm q ch => cases q <;> simp [Cfg.registers, RegName.present]
  | _ => simp [Cfg.registers, RegName.present]

/-! ### Sets of codes -/

theorem testBit_or_one_shiftLeft (a n i : Nat) : (a ||| 1 <<< n).testBit i = (a.testBit i || decide (n = i)) := by
  rw [Nat.testBit_or, Nat.one_shiftLeft, Nat.testBit_two_pow]

theorem testBit_codeSet_from (l : List Nat) (a i : Nat) :
    (l.foldl (fun acc n => acc ||| 1 <<< n) a).testBit i = (a.testBit i || decide (i ∈ l)) := by
  induction l generalizing a with
  | nil => simp
  | cons n l ih =>
    rw [List.foldl_cons, ih, testBit_or_one_shiftLeft]
    by_cases h : i = n
    · simp [h]
    · simp [h, Ne.symm h]

/-- Bit `i` of a set of codes says whether `i` is one of them. -/
theorem testBit_codeSet (l : List Nat) (i : Nat) : (codeSet l).testBit i = decide (i ∈ l) := by
  simp [codeSet, testBit_codeSet_from]

/-- Two lists with one set of codes have the same codes. -/
theorem codeSet_eq_iff (l m : List Nat) : codeSet l = codeSet m ↔ ∀ i, i ∈ l ↔ i ∈ m := by
  constructor
  · intro h i
    have := congrArg (·.testBit i) h
    simpa [testBit_codeSet] using this
  · intro h
    apply Nat.eq_of_testBit_eq
    intro i
    simp [testBit_codeSet, h i]

theorem allDistinct_iff_from (l : List Nat) (seen : Nat) :
    allDistinct l seen = true ↔ l.Nodup ∧ ∀ n ∈ l, seen.testBit n = false := by
  induction l generalizing seen with
  | nil => simp [allDistinct]
  | cons n l ih =>
    simp only [allDistinct, Bool.and_eq_true, Bool.not_eq_true', ih, testBit_or_one_shiftLeft, List.nodup_cons,
      List.mem_cons, forall_eq_or_imp, Bool.or_eq_false_iff, decide_eq_false_iff_not]
    constructor
    · rintro ⟨h1, h2, h3⟩
      exact ⟨⟨fun h => (h3 n h).2 rfl, h2⟩, h1, fun m hm => (h3 m hm).1⟩
    · rintro ⟨⟨h1, h2⟩, h3, h4⟩
      exact ⟨h3, h2, fun m hm => ⟨h4 m hm, fun e => h1 (e ▸ hm)⟩⟩

/-- No number stands twice in the list. -/
theorem allDistinct_iff (l : List Nat) : allDistinct l 0 = true ↔ l.Nodup := by
  simp [allDistinct_iff_from]

/-- `AddrMap` lists every register that exists once, and no other (R7, R91, R92). -/
theorem namesOk_iff (c : Cfg) :
    c.namesOk = true ↔
      (c.addrMap.map (·.1)).Nodup ∧ ∀ r, r ∈ c.addrMap.map (·.1) ↔ r.present c = true := by
  have hmap : c.addrMap.map (·.1.code) = (c.addrMap.map (·.1)).map RegName.code := by simp
  simp only [Cfg.namesOk, Bool.and_eq_true, beq_iff_eq, allDistinct_iff, codeSet_eq_iff, hmap,
    List.nodup_map_iff RegName.code_injective]
  refine and_congr_right fun _ => ⟨fun h r => ?_, fun h i => ?_⟩
  · have := h r.code
    simpa only [List.mem_map_of_injective RegName.code_injective, mem_registers] using this
  · simp only [List.mem_map (f := RegName.code)]
    exact exists_congr fun r => and_congr_left fun _ => (h r).trans (mem_registers c r).symm

/-! ### Windows -/

/-- Two windows are disjoint iff no address is in both. -/
theorem Window.disjoint_iff (x y : Window) :
    x.disjoint y = true ↔
      ∀ a, x.first ≤ a → a < x.first + x.size → ¬ (y.first ≤ a ∧ a < y.first + y.size) := by
  simp only [Window.disjoint, Bool.or_eq_true, decide_eq_true_eq]
  constructor
  · intro h a h1 h2 h3
    omega
  · intro h
    by_contra hn
    exact h (max x.first y.first) (by omega) (by omega) (by omega)

/-- The windows of a list are disjoint iff each is disjoint from every later one. -/
theorem windowsDisjoint_iff (l : List Window) :
    windowsDisjoint l = true ↔ l.Pairwise (fun x y => x.disjoint y = true) := by
  induction l with
  | nil => simp [windowsDisjoint]
  | cons x l ih => simp [windowsDisjoint, ih]

/-- The handlers of the banks (R310): one for each, its range the bank's window, and none of another bank. -/
theorem flashHandlersOk_iff (c : Cfg) :
    c.flashHandlersOk = true ↔
      (∀ b < c.nBanks, ∃ h, c.handlers.filter (fun h => h.kind == .flash b) = [h] ∧
        h.lo.toNat = (c.bankBase b).toNat ∧ h.hi.toNat + 1 = (c.bankBase b).toNat + c.bankSize b) ∧
      ∀ h ∈ c.handlers, ∀ b, h.kind = .flash b → b < c.nBanks := by
  simp only [Cfg.flashHandlersOk, Bool.and_eq_true, List.all_eq_true, List.mem_range, beq_iff_eq]
  refine and_congr (forall_congr' fun b => imp_congr_right fun _ => ?_) (forall_congr' fun h => imp_congr_right fun _ => ?_)
  · rw [List.map_eq_singleton_iff]
    simp only [Prod.mk.injEq]
  · cases h.kind <;> simp

end Sys2Proof.Laws
end

