-- ==== Sys2Proof/Tests/Slice0.lean ====
section
/-! SUPPORT. Tests of the model's own: ill-formed terms that each check refuses, the decoding of every operation from
bytes written out by hand from the spec's addresses, one step of every operation against the vectors of
spec/95_test_vectors.md (V-…), and a witness for every statement that has hypotheses. -/

open Sys2Proof Sys2Proof.Machine

namespace Sys2Proof.Tests

set_option Elab.async false

/-- One projection of the next state of an outcome. -/
def after {α : Type} (r : Res) (f : State → α) : Option α :=
  match r with
  | .next t => some (f t)
  | .fault _ => none
  | .refused _ => none

/-- An outcome with a projection has a next state. -/
theorem next_of_after {α : Type} {r : Res} {f : State → α} {x : α} (h : after r f = some x) :
    ∃ t, r = .next t ∧ f t = x := by
  cases r with
  | next t => exact ⟨t, rfl, by simpa [after] using h⟩
  | fault _ => simp [after] at h
  | refused _ => simp [after] at h

/-- A projection of an outcome says that there is a next state. -/
theorem has_next {α : Type} {r : Res} {f : State → α} (h : (after r f).isSome = true) : ∃ t, r = .next t := by
  obtain ⟨x, hx⟩ := Option.isSome_iff_exists.mp h
  obtain ⟨t, ht, -⟩ := next_of_after hx
  exact ⟨t, ht⟩

/-- The bytes decode, under the view `w`, to the operation. -/
def decodesTo (w : View) (p : List Byte × Instr) : Bool :=
  match decode w p.1 with
  | .ok i => decide (i = p.2)
  | .error _ => false

/-- The reset state with the next move a request. -/
def asked (t : Transaction) : State := { State.reset with schedule := [.request (encodeRequest t)] }

/-! ## Well-formedness: the test configuration is accepted, each check refuses an ill-formed term -/

theorem test_tc_wf : Config.tc.wf = true := by decide +kernel

theorem test_wf_refuses_handler_order :
    ∀ c ∈ ([{ Config.tc with handlers := ⟨"ALL", 0, 0xFFFFFFFF, .ic, 0⟩ :: Config.tcHandlers }] : List Cfg),
      handlersOrdered c.handlers = false ∧ c.wf = false := by decide +kernel

theorem test_wf_refuses_addresses :
    ∀ c ∈ ([{ Config.tc with addrMap := [(.clock, 8), (.icCurrent, 8)] },
     { Config.tc with addrMap := [(.clock, 8), (.icCurrent, 4)] }] : List Cfg),
      addrMapRising c.addrMap = false ∧ c.wf = false := by decide +kernel

/-- A register listed twice, one missing, one that the configuration does not have (R91, R92). -/
theorem test_wf_refuses_names :
    ∀ c ∈ ([{ Config.tc with addrMap := Config.tcAddrMap ++ [(.clock, 0xC0FFFFFC)] },
     { Config.tc with addrMap := Config.tcAddrMap.tail },
     { Config.tc with addrMap := Config.tcAddrMap ++ [(.tmrCtrl 4, 0xC0FFFFFC)] }] : List Cfg),
      addrMapRising c.addrMap = true ∧ c.namesOk = false ∧ c.wf = false := by decide +kernel

/-- A register inside the ATA window, overlapping sub-ranges, a constant in a sub-range, two equal constants, a window
past the end of the address space (R91). -/
theorem test_wf_refuses_windows :
    ∀ c ∈ ([{ Config.tc with cfAtaBase := 0xC0600200, cfAtaLast := 0xC06202FF },
     { Config.tc with chswR1 := ⟨0xC0F0503C, [some 22, some 23]⟩ },
     { Config.tc with modelConst := [(0xC0F05000, 1)] },
     { Config.tc with modelConst := [(0xC0400008, 1), (0xC0400008, 2)] },
     { Config.tc with chswW1 := ⟨0xFFFFFFFC, [none, none]⟩ }] : List Cfg),
      c.windowsOk = false ∧ c.wf = false := by decide +kernel

/-- A bank with no handler, with two, with one of another range; a handler of a bank that is not there (R310). -/
theorem test_wf_refuses_flash_handlers :
    ∀ c ∈ ([{ Config.tc with handlers := Config.tcHandlers.filter (fun h => h.kind != .flash 1) },
     { Config.tc with handlers := Config.tcHandlers ++ [⟨"AGAIN", 0xE0000000, 0xE0001FFF, .flash 1, 0⟩] },
     { Config.tc with
       handlers := Config.tcHandlers.filter (fun h => h.kind != .flash 1) ++ [⟨"FLASH1", 0xF0000000, 0xF0000FFF, .flash 1, 0⟩] },
     { Config.tc with handlers := Config.tcHandlers ++ [⟨"MORE", 0xE0000000, 0xE0001FFF, .flash 2, 0⟩] }] : List Cfg),
      c.flashHandlersOk = false ∧ c.wf = false := by decide +kernel

theorem test_wf_refuses_interrupt_ids :
    ∀ c ∈ ([{ Config.tc with osTimerIrq := 0x80 },
     { Config.tc with hptIrq := 0x80 },
     { Config.tc with sdIrq := 0x80 },
     { Config.tc with cfIrq := 0x80 },
     { Config.tc with cfDmaIrq := 0x80 },
     { Config.tc with dmaIrq := [0x80] },
     { Config.tc with edmac := List.replicate 24 ⟨true, some 0x80⟩ }] : List Cfg),
      c.idsOk = false ∧ c.wf = false := by decide +kernel

theorem test_wf_refuses_timers :
    ∀ c ∈ ([{ Config.tc with osTimerCh := 4 },
     { Config.tc with clockStep := 0 },
     { Config.tc with clockMod := 0 },
     { Config.tc with clockMod := 0x180 },
     { Config.tc with clockMod := 0x100000100 }] : List Cfg),
      c.timersOk = false ∧ c.wf = false := by decide +kernel

theorem test_wf_refuses_engines :
    ∀ c ∈ ([{ Config.tc with dmaK := 0 },
     { Config.tc with dmaBlock := 0 },
     { Config.tc with edmac := [] },
     { Config.tc with cfSliceWords := 0 },
     { Config.tc with cfDmaWriteCmd := 0x39 },
     { Config.tc with cfStatusOff := 0x100 }] : List Cfg),
      c.enginesOk = false ∧ c.wf = false := by decide +kernel

theorem test_wf_refuses_sd_bits :
    ∀ c ∈ ([{ Config.tc with sdStDone := 1 },
     { Config.tc with sdStErr := 0 },
     { Config.tc with sdStErr := 1 },
     { Config.tc with sdStDone := 32 },
     { Config.tc with sdStData := 32 },
     { Config.tc with sdStErr := 32 }] : List Cfg),
      c.sdOk = false ∧ c.wf = false := by decide +kernel

theorem test_wf_refuses_flash :
    ∀ c ∈ ([{ Config.tc with flashBusyReads := 17 },
     { Config.tc with flashBlockSize := 0 },
     { Config.tc with flashBlockSize := 3 },
     { Config.tc with banks := [⟨0, 3, []⟩] },
     { Config.tc with banks := [⟨0xFFFFFFFE, 4, []⟩] },
     { Config.tc with banks := [⟨0, 4, [(4, 0)]⟩] },
     { Config.tc with banks := [⟨0, 4, [(0, 0xFF)]⟩] },
     { Config.tc with banks := [⟨0, 4, [(1, 0), (0, 0)]⟩] },
     { Config.tc with banks := [⟨0, 4, []⟩, ⟨2, 4, []⟩] }] : List Cfg),
      c.flashOk = false ∧ c.wf = false := by decide +kernel

theorem test_wf_refuses_planes :
    ∀ c ∈ ([{ Config.tc with bmpPitch := 3 },
     { Config.tc with yuvW := 1 },
     { Config.tc with yuvPitch := 3 },
     { Config.tc with bmpW := 3, yuvW := 2 },
     { Config.tc with bmpH := 3, yuvH := 2 },
     { Config.tc with yuvLayout := ⟨0, 1, 2, 4⟩ },
     { Config.tc with yuvLayout := ⟨0, 1, 1, 2⟩ }] : List Cfg),
      c.planesOk = false ∧ c.wf = false := by decide +kernel

/-- An operand just beyond its range, for every operation that has one. -/
theorem test_wf_refuses_operands :
    ∀ i ∈ ([.modelConstR 4, .icDisableW 4 0, .tmrCtrlW 4 0, .tmrCtrlR 4,
     .tmrReloadW 4 0, .tmrReloadR 4, .tmrValueR 4, .hptCmpW 8 0,
     .hptCmpR 8, .hptCtrlW 8 0, .hptCtrlR 8, .dmaSrcW 2 0,
     .dmaSrcR 2, .dmaDstW 2 0, .dmaDstR 2, .dmaCountW 2 0,
     .dmaCountR 2, .dmaStart 2 0, .edmRegW .addr 24 0, .edmRegR .addr 24,
     .edmStart 24 0, .chswRW false 64 0, .chswRW true 8 0, .chswWW false 16 0,
     .chswWW true 16 0, .sdRespR 4, .cfAtaR 0x100, .cfAtaR 0x1C,
     .cfAtaW 0x100 0, .cfDmaReq 0x12, .flRead 2 0, .flBusyRead 2 0,
     .flUnlock1 0 0x2000 0, .flUnlock2 0 0x2000 0, .flCmdProgram 0 0x2000 0, .flCmdErase 0 0x2000 0,
     .flEraseUnlock1 0 0x2000 0, .flEraseUnlock2 0 0x2000 0, .flChipErase 0 0x2000 0, .flBlockErase 0 0x2000 0,
     .flBypassEraseEntry 0 0x2000 0, .flBypassProgramEntry 0 0x2000 0, .flBypassChipErase 0 0x2000 0, .flBypassBlockErase 0 0x2000 0,
     .flProgramData 0 0x2000 0, .flBadCycle 0 0x2000 0, .flPassR 0 0, .flPassW 0 0 0,
     .pal4W 16 0, .pal4R 16, .pal8W 256 0, .pal8R 256] : List Instr), i.wf Config.tc = false := by
  decide +kernel

/-- The greatest operand of each range is accepted. -/
theorem test_wf_accepts_operands :
    ∀ i ∈ ([.icDisableW 3 0, .tmrCtrlW 3 0, .hptCmpW 7 0, .dmaStart 1 0,
     .edmStart 23 0, .chswRW false 63 0, .chswRW true 7 0, .chswWW false 15 0,
     .chswWW true 15 0, .sdRespR 3, .cfAtaR 0xFF, .cfAtaW 0xFF 0,
     .cfDmaReq 0xCA, .flRead 1 0x1FFF, .pal4W 15 0, .pal8W 255 0] : List Instr), i.wf Config.tc = true := by
  decide +kernel

/-! ## Decoding: bytes written out from the addresses of `TC`, one case per operation

Byte 0 is the format (0 read, 1 write, 2 TRIG, 3 TICK, 4 HOST, 5 the IDE event), bytes 1 to 4 the address, bytes 5 to 8
the value, least significant byte first. -/

theorem test_decode_dispatcher :
    ∀ p ∈ ([([0, 0, 0, 0, 0xd0, 0, 0, 0, 0], .accUnknownR 0xD0000000),
     ([1, 0, 0, 0, 0xd0, 7, 0, 0, 0], .accUnknownW 0xD0000000 7),
     ([0, 0, 0, 0xff, 0xc0, 0, 0, 0, 0], .accDefaultR 0xC0FF0000),
     ([1, 0, 0, 0xff, 0xc0, 1, 0, 0, 0], .accDefaultW 0xC0FF0000 1),
     ([0, 0x10, 0x10, 0x20, 0xc0, 0, 0, 0, 0], .accUnmodeledR 0xC0201010),
     ([1, 0xc, 0x10, 0x20, 0xc0, 1, 0, 0, 0], .accUnmodeledW 0xC020100C 1),
     ([1, 0xc, 0, 0x21, 0xc0, 5, 0, 0, 0], .accUnmodeledW 0xC021000C 5),
     ([0, 8, 0, 0x40, 0xc0, 0, 0, 0, 0], .modelConstR 0xC0400008),
     ([0, 0xc, 0, 0x40, 0xc0, 0, 0, 0, 0], .accUnmodeledR 0xC040000C),
     ([1, 8, 0, 0x40, 0xc0, 7, 0, 0, 0], .accUnmodeledW 0xC0400008 7)] : List (List Byte × Instr)),
      decodesTo (View.reset Config.tc) p = true := by decide +kernel

theorem test_decode_interrupts :
    ∀ p ∈ ([([2, 5, 0, 0, 0, 3, 0, 0, 0], .icTrigger 5 3),
     ([0, 4, 0x10, 0x20, 0xc0, 0, 0, 0, 0], .icAck),
     ([1, 0x10, 0x10, 0x20, 0xc0, 0x4a, 0, 0, 0], .icEnableW 0x4A),
     ([1, 0xc, 0x12, 0x20, 0xc0, 0x80, 0, 0, 0], .icDisableW 3 0x80),
     ([3, 3, 0, 0, 0, 0, 0, 0, 0], .icTickWalk)] : List (List Byte × Instr)),
      decodesTo (View.reset Config.tc) p = true := by decide +kernel

theorem test_decode_timers :
    ∀ p ∈ ([([1, 0, 3, 0x21, 0xc0, 1, 0, 0, 0], .tmrCtrlW 3 1),
     ([0, 0, 3, 0x21, 0xc0, 0, 0, 0, 0], .tmrCtrlR 3),
     ([1, 8, 2, 0x21, 0xc0, 0, 0x27, 0, 0], .tmrReloadW 2 0x2700),
     ([0, 8, 2, 0x21, 0xc0, 0, 0, 0, 0], .tmrReloadR 2),
     ([0, 0xc, 1, 0x21, 0xc0, 0, 0, 0, 0], .tmrValueR 1),
     ([0, 0x14, 0x20, 0x24, 0xc0, 0, 0, 0, 0], .clockR),
     ([3, 1, 0, 0, 0, 0, 0, 0, 0], .tmrTick),
     ([1, 0x30, 0x30, 0x24, 0xc0, 0x56, 0x34, 0x12, 0], .hptCmpW 3 0x123456),
     ([0, 0x70, 0x30, 0x24, 0xc0, 0, 0, 0, 0], .hptCmpR 7),
     ([1, 0x74, 0x30, 0x24, 0xc0, 1, 0, 0, 0], .hptCtrlW 7 1),
     ([0, 4, 0x30, 0x24, 0xc0, 0, 0, 0, 0], .hptCtrlR 0),
     ([0, 0, 0x33, 0x24, 0xc0, 0, 0, 0, 0], .hptStatusR),
     ([1, 0, 0x33, 0x24, 0xc0, 8, 0, 0, 0], .hptStatusW 8),
     ([3, 2, 0, 0, 0, 0, 0, 0, 0], .hptTick)] : List (List Byte × Instr)),
      decodesTo (View.reset Config.tc) p = true := by decide +kernel

theorem test_decode_dma :
    ∀ p ∈ ([([1, 0x18, 0, 0xa0, 0xc0, 0, 0x10, 0, 0], .dmaSrcW 0 0x1000),
     ([0, 0x18, 1, 0xa0, 0xc0, 0, 0, 0, 0], .dmaSrcR 1),
     ([1, 0x1c, 1, 0xa0, 0xc0, 0, 0x20, 0, 0], .dmaDstW 1 0x2000),
     ([0, 0x1c, 0, 0xa0, 0xc0, 0, 0, 0, 0], .dmaDstR 0),
     ([1, 0x20, 0, 0xa0, 0xc0, 0x40, 0, 0, 0], .dmaCountW 0 0x40),
     ([0, 0x20, 1, 0xa0, 0xc0, 0, 0, 0, 0], .dmaCountR 1),
     ([1, 8, 1, 0xa0, 0xc0, 1, 0, 0, 0], .dmaStart 1 1)] : List (List Byte × Instr)),
      decodesTo (View.reset Config.tc) p = true := by decide +kernel

theorem test_decode_edmac :
    ∀ p ∈ ([([1, 0xc8, 0x43, 0xf0, 0xc0, 0x10, 0, 0, 0], .edmRegW .addr 15 0x10),
     ([1, 0xc, 0x44, 0xf0, 0xc0, 0x11, 0, 0, 0], .edmRegW .flags 16 0x11),
     ([1, 0x50, 0x44, 0xf0, 0xc0, 0x12, 0, 0, 0], .edmRegW .sizeA 17 0x12),
     ([1, 0x94, 0x44, 0xf0, 0xc0, 0x13, 0, 0, 0], .edmRegW .offA 18 0x13),
     ([1, 0xd8, 0x44, 0xf0, 0xc0, 0x14, 0, 0, 0], .edmRegW .sizeB 19 0x14),
     ([1, 0x1c, 0x45, 0xf0, 0xc0, 0x15, 0, 0, 0], .edmRegW .offB 20 0x15),
     ([1, 0x60, 0x45, 0xf0, 0xc0, 0x16, 0, 0, 0], .edmRegW .sizeN 21 0x16),
     ([1, 0xa4, 0x45, 0xf0, 0xc0, 0x17, 0, 0, 0], .edmRegW .offN 22 0x17),
     ([1, 0xe8, 0x45, 0xf0, 0xc0, 0x18, 0, 0, 0], .edmRegW .byteOff 23 0x18),
     ([0, 8, 0x41, 0xf0, 0xc0, 0, 0, 0, 0], .edmRegR .addr 4),
     ([0, 0xc, 0x41, 0xf0, 0xc0, 0, 0, 0, 0], .edmRegR .flags 4),
     ([0, 0x10, 0x41, 0xf0, 0xc0, 0, 0, 0, 0], .edmRegR .sizeA 4),
     ([0, 0x14, 0x41, 0xf0, 0xc0, 0, 0, 0, 0], .edmRegR .offA 4),
     ([0, 0x18, 0x41, 0xf0, 0xc0, 0, 0, 0, 0], .edmRegR .sizeB 4),
     ([0, 0x1c, 0x41, 0xf0, 0xc0, 0, 0, 0, 0], .edmRegR .offB 4),
     ([0, 0x20, 0x41, 0xf0, 0xc0, 0, 0, 0, 0], .edmRegR .sizeN 4),
     ([0, 0x24, 0x41, 0xf0, 0xc0, 0, 0, 0, 0], .edmRegR .offN 4),
     ([0, 0x28, 0x41, 0xf0, 0xc0, 0, 0, 0, 0], .edmRegR .byteOff 4),
     ([1, 0xc0, 0x45, 0xf0, 0xc0, 1, 0, 0, 0], .edmStart 23 1),
     ([1, 8, 0x50, 0xf0, 0xc0, 5, 0, 0, 0], .chswRW false 8 5),
     ([1, 4, 0x51, 0xf0, 0xc0, 5, 0, 0, 0], .chswRW true 4 5),
     ([1, 0xc, 0x52, 0xf0, 0xc0, 5, 0, 0, 0], .chswWW false 12 5),
     ([1, 0, 0x53, 0xf0, 0xc0, 0x11, 0, 0, 0], .chswWW true 0 0x11),
     ([0, 8, 0x50, 0xf0, 0xc0, 0, 0, 0, 0], .chswRead 0xC0F05008),
     ([1, 0x40, 0x50, 0xf0, 0xc0, 1, 0, 0, 0], .accUnmodeledW 0xC0F05040 1)] : List (List Byte × Instr)),
      decodesTo (View.reset Config.tc) p = true := by decide +kernel

theorem test_decode_sdio :
    ∀ p ∈ ([([1, 0xc, 0, 0xc1, 0xc0, 7, 0, 0, 0], .sdCmdloW 7),
     ([0, 0xc, 0, 0xc1, 0xc0, 0, 0, 0, 0], .sdCmdloR),
     ([1, 0x10, 0, 0xc1, 0xc0, 0, 0x51, 0, 0], .sdCmdhiW 0x5100),
     ([0, 0x10, 0, 0xc1, 0xc0, 0, 0, 0, 0], .sdCmdhiR),
     ([1, 0x80, 0, 0xc1, 0xc0, 0, 0, 8, 0], .sdDmaregW .addr 0x80000),
     ([1, 0x84, 0, 0xc1, 0xc0, 0, 2, 0, 0], .sdDmaregW .count 0x200),
     ([0, 0x80, 0, 0xc1, 0xc0, 0, 0, 0, 0], .sdDmaregR .addr),
     ([0, 0x84, 0, 0xc1, 0xc0, 0, 0, 0, 0], .sdDmaregR .count),
     ([1, 0x70, 0, 0xc1, 0xc0, 1, 0, 0, 0], .sdDmactrlW 1),
     ([0, 0x70, 0, 0xc1, 0xc0, 0, 0, 0, 0], .sdDmactrlR),
     ([1, 8, 0, 0xc1, 0xc0, 1, 0, 0, 0], .sdIssue 1),
     ([0, 0x34, 0, 0xc1, 0xc0, 0, 0, 0, 0], .sdRespR 0),
     ([0, 0x40, 0, 0xc1, 0xc0, 0, 0, 0, 0], .sdRespR 3),
     ([0, 0x88, 0, 0xc1, 0xc0, 0, 0, 0, 0], .sdProgressR),
     ([1, 0x1c, 0, 0xc1, 0xc0, 1, 0, 0, 0], .sdIrqenW 1),
     ([0, 0x1c, 0, 0xc1, 0xc0, 0, 0, 0, 0], .sdIrqenR),
     ([0, 0x18, 0, 0xc1, 0xc0, 0, 0, 0, 0], .sdStatusR),
     ([0, 8, 0, 0xc1, 0xc0, 0, 0, 0, 0], .accUnmodeledR 0xC0C10008),
     ([1, 0x34, 0, 0xc1, 0xc0, 1, 0, 0, 0], .accUnmodeledW 0xC0C10034 1)] : List (List Byte × Instr)),
      decodesTo (View.reset Config.tc) p = true := by decide +kernel

theorem test_decode_cf :
    ∀ p ∈ ([([0, 0xff, 0, 0x62, 0xc0, 0, 0, 0, 0], .cfAtaR 0xFF),
     ([1, 0x1c, 0, 0x62, 0xc0, 0x20, 0, 0, 0], .cfAtaW 0x1C 0x20),
     ([0, 0x1c, 0, 0x62, 0xc0, 0, 0, 0, 0], .cfStatusR),
     ([5, 0, 0, 0, 0, 0, 0, 0, 0], .cfIdeDone),
     ([0, 4, 1, 0x60, 0xc0, 0, 0, 0, 0], .cfIntstatR),
     ([1, 0, 2, 0x60, 0xc0, 0, 0, 9, 0], .cfDmaregW .addr 0x90000),
     ([1, 4, 2, 0x60, 0xc0, 0x10, 0, 0, 0], .cfDmaregW .count 0x10),
     ([0, 0, 2, 0x60, 0xc0, 0, 0, 0, 0], .cfDmaregR .addr),
     ([0, 4, 2, 0x60, 0xc0, 0, 0, 0, 0], .cfDmaregR .count),
     ([1, 8, 2, 0x60, 0xc0, 1, 0, 0, 0], .cfDmaenW 1),
     ([0, 8, 2, 0x60, 0xc0, 0, 0, 0, 0], .cfDmaenR),
     ([1, 0xc, 2, 0x60, 0xc0, 0x39, 0, 0, 0], .cfDmaReq 0x39),
     ([1, 0xc, 2, 0x60, 0xc0, 0xca, 0, 0, 0], .cfDmaReq 0xCA),
     ([1, 0xc, 2, 0x60, 0xc0, 0x12, 0, 0, 0], .accUnmodeledW 0xC060020C 0x12),
     ([3, 4, 0, 0, 0, 0, 0, 0, 0], .cfDmaSlice),
     ([3, 5, 0, 0, 0, 0, 0, 0, 0], .cfDmaIrq)] : List (List Byte × Instr)),
      decodesTo (View.reset Config.tc) p = true := by decide +kernel

theorem test_decode_display :
    ∀ p ∈ ([([1, 0x3c, 0x44, 0xf1, 0xc0, 1, 0, 0, 0], .pal4W 15 1),
     ([0, 0xc, 0x44, 0xf1, 0xc0, 0, 0, 0, 0], .pal4R 3),
     ([1, 0xfc, 0x4b, 0xf1, 0xc0, 3, 2, 1, 0], .pal8W 255 0x00010203),
     ([0, 0, 0x48, 0xf1, 0xc0, 0, 0, 0, 0], .pal8R 0),
     ([1, 0x80, 0x40, 0xf1, 0xc0, 0, 0, 0x10, 0], .planeAddrW .bmp 0x100000),
     ([1, 0x84, 0x40, 0xf1, 0xc0, 0, 0, 0x11, 0], .planeAddrW .yuv 0x110000),
     ([0, 0x80, 0x40, 0xf1, 0xc0, 0, 0, 0, 0], .planeAddrR .bmp),
     ([0, 0x84, 0x40, 0xf1, 0xc0, 0, 0, 0, 0], .planeAddrR .yuv),
     ([4, 0, 0, 0, 0, 0, 0, 0, 0], .dispCompose),
     ([4, 1, 0, 0, 0, 0, 0, 0, 0], .dispInvalidate),
     ([3, 0, 0, 0, 0, 0, 0, 0, 0], .tick),
     ([4, 2, 0, 0, 0, 0, 0, 0, 0], .hostHalt),
     ([4, 3, 0, 0, 0, 0, 0, 0, 0], .hostRelease)] : List (List Byte × Instr)),
      decodesTo (View.reset Config.tc) p = true := by decide +kernel

/-- Bank 1 of `TC` in a state, bank 0 in READ. -/
def bank1In (st : FlashState) : View := ⟨Config.tc, [.read, st]⟩

theorem test_decode_flash :
    ∀ p ∈ ([(.read, [1, 0xaa, 0xa, 0, 0xf0, 0xaa, 0, 0, 0], .flUnlock1 1 0xAAA 0xAA),
     (.read, [1, 0x20, 0, 0, 0xf0, 0x80, 0, 0, 0], .flBypassEraseEntry 1 0x20 0x80),
     (.read, [1, 0x20, 0, 0, 0xf0, 0xa0, 0, 0, 0], .flBypassProgramEntry 1 0x20 0xA0),
     (.read, [1, 0xaa, 0xa, 0, 0xf0, 0xaa, 0, 0xff, 0xff], .flUnlock1 1 0xAAA 0xFFFF00AA),
     (.read, [1, 0xaa, 0xa, 0, 0xf0, 0xaa, 0x12, 0, 0], .flBadCycle 1 0xAAA 0x12AA),
     (.unlock2, [1, 0x54, 5, 0, 0xf0, 0x55, 0, 0, 0], .flUnlock2 1 0x554 0x55),
     (.unlock2, [1, 0x46, 2, 0, 0xf0, 0x55, 0, 0, 0], .flBadCycle 1 0x246 0x55),
     (.unlocked, [1, 0xaa, 0xa, 0, 0xf0, 0xa0, 0, 0, 0], .flCmdProgram 1 0xAAA 0xA0),
     (.unlocked, [1, 0xaa, 0xa, 0, 0xf0, 0x80, 0, 0, 0], .flCmdErase 1 0xAAA 0x80),
     (.unlocked, [1, 0xaa, 0xa, 0, 0xf0, 0x90, 0, 0, 0], .flBadCycle 1 0xAAA 0x90),
     (.erase1, [1, 0xaa, 0xa, 0, 0xf0, 0xaa, 0, 0, 0], .flEraseUnlock1 1 0xAAA 0xAA),
     (.erase2, [1, 0x54, 5, 0, 0xf0, 0x55, 0, 0, 0], .flEraseUnlock2 1 0x554 0x55),
     (.erase3, [1, 0xaa, 0xa, 0, 0xf0, 0x10, 0, 0, 0], .flChipErase 1 0xAAA 0x10),
     (.erase3, [1, 0, 0x12, 0, 0xf0, 0x30, 0, 0, 0], .flBlockErase 1 0x1200 0x30),
     (.unlockBypassErase, [1, 0xee, 0xe, 0, 0xf0, 0x10, 0, 0, 0], .flBypassChipErase 1 0xEEE 0x10),
     (.unlockBypassErase, [1, 0, 0, 0, 0xf0, 0x30, 0, 0, 0], .flBypassBlockErase 1 0 0x30),
     (.program, [1, 0, 2, 0, 0xf0, 0xf, 0xf, 0, 0], .flProgramData 1 0x200 0xF0F),
     (.program, [1, 0xaa, 0xa, 0, 0xf0, 0xaa, 0, 0, 0], .flProgramData 1 0xAAA 0xAA),
     (.blockEraseBusy, [1, 0, 0, 0, 0xf0, 0xf0, 0, 0, 0], .flBadCycle 1 0 0xF0),
     (.unlockBypass, [1, 0xaa, 0xa, 0, 0xf0, 0xaa, 0, 0, 0], .flBadCycle 1 0xAAA 0xAA),
     (.unlocked, [0, 0, 2, 0, 0xf0, 0, 0, 0, 0], .flRead 1 0x200),
     (.blockEraseBusy, [0, 0xff, 0x1f, 0, 0xf0, 0, 0, 0, 0], .flBusyRead 1 0x1FFF)] :
        List (FlashState × List Byte × Instr)),
      decodesTo (bank1In p.1) p.2 = true := by decide +kernel

theorem test_decode_flash_pass :
    ∀ p ∈ ([([0, 0xaa, 0xa, 0, 0xf8, 0, 0, 0, 0], .flPassR 0 0xAAA),
     ([1, 0xaa, 0xa, 0, 0xf8, 0xaa, 0, 0, 0], .flPassW 0 0xAAA 0xAA)] : List (List Byte × Instr)),
      decodesTo ⟨{ Config.tc with flashSmEnabled := false }, [.read, .read]⟩ p = true := by decide +kernel

/-- Why bytes are refused. -/
def refusal (bytes : List Byte) : Option DecodeError :=
  match decodeRequest bytes with
  | .ok _ => none
  | .error e => some e

/-- Bytes that are no transaction are refused by name. -/
theorem test_decode_refuses :
    [refusal [0], refusal (6 :: List.replicate 8 0), refusal [3, 6, 0, 0, 0, 0, 0, 0, 0],
      refusal [4, 4, 0, 0, 0, 0, 0, 0, 0], refusal [3, 0, 1, 0, 0, 0, 0, 0, 0], refusal [5, 0, 0, 0, 0, 1, 0, 0, 0]] =
    [some (.length 1), some (.format 6), some (.tickOp 6), some (.hostOp 4), some .reserved, some .reserved] := by
  decide +kernel

/-- Every operation decodes back from its own encoding. -/
theorem test_encode_decode :
    ∀ i ∈ ([.icAck, .icEnableW 7, .pal8W 255 9, .edmRegW .byteOff 23 1, .sdDmaregR .count, .cfDmaReq 0x39, .chswRW true 4 1,
        .chswWW true 12 1, .cfAtaR 0xFF, .cfStatusR, .flUnlock1 1 0xAAA 0xAA, .flRead 0 0x1FFF, .tick, .hostHalt, .cfIdeDone,
        .icTrigger 1 2] : List Instr),
      ((encode Config.tc i).map (fun bytes => decodesTo (View.reset Config.tc) (bytes, i))) = some true := by
  decide +kernel

/-- The host's two ways in: a word of bits is the request's bytes, and `step` runs it first after reset. -/
theorem test_fetch_word :
    decodeTableWord 72 0x4AC020101001 = some (.icEnableW 0x4A) ∧
      after (step (State.reset.withFetchWord 72 0x4AC020101001)) (fun t => (lineAt t 0x4A, t.ret)) =
        some (⟨true, 0⟩, some 0) := by decide +kernel

/-! ## One step of each operation (spec/95_test_vectors.md) -/

/-- The reset state with some lines set. -/
def withLines (ls : List (Nat × Line)) : State :=
  { State.reset with ic := { State.reset.ic with line := ls.foldl (fun l p => l.set p.1 p.2) State.reset.ic.line } }

/-- The line in service and the level of the CPU line. -/
def service (t : State) : Option Nat × Bool := (t.ic.active.map (·.id), t.ic.irqLine)

/-- The reset state with unlimited scripts left out and the given ones put in. -/
def scripted (e : Env) : State := { State.reset with env := e }

/-- V-DP-1: the fifth access to one unknown address is still logged, the sixth is not. -/
theorem test_accUnknownR :
    after (exec (.accUnknownR 0xD0000000) { State.reset with lim := ⟨some 0xD0000000, 4⟩ })
        (fun t => (t.ret, t.lim, t.calls.length)) = some (some 0, ⟨some 0xD0000000, 5⟩, 1) ∧
      after (exec (.accUnknownR 0xD0000000) { State.reset with lim := ⟨some 0xD0000000, 5⟩ })
        (fun t => (t.ret, t.lim, t.calls.length)) = some (some 0, ⟨some 0xD0000000, 6⟩, 0) := by decide +kernel

/-- V-DP-2: another address restarts the count. -/
theorem test_accUnknownW :
    after (exec (.accUnknownW 0xD0000004 7) { State.reset with lim := ⟨some 0xD0000000, 6⟩ })
        (fun t => (t.ret, t.lim, t.calls)) =
      some (some 0, ⟨some 0xD0000004, 1⟩, [.log .unknown (.access 0xD0000004 true 7 0)]) := by decide +kernel

/-- V-DP-3: a default access is silent and does not count. -/
theorem test_accDefault :
    after (exec (.accDefaultR 0xC0FF0000) State.reset) (fun t => (t.ret, t.lim, t.calls)) = some (some 0, ⟨none, 0⟩, []) ∧
      after (exec (.accDefaultW 0xC0FF0000 1) State.reset) (fun t => (t.ret, t.lim, t.calls)) =
        some (some 0, ⟨none, 0⟩, []) := by decide +kernel

/-- V-DP-4. -/
theorem test_accUnmodeled :
    after (exec (.accUnmodeledR 0xC0201010) State.reset) (fun t => (t.ret, t.calls)) =
        some (some 0, [.log .unmodeled (.access 0xC0201010 false 0 0)]) ∧
      after (exec (.accUnmodeledW 0xC020100C 1) State.reset) (fun t => (t.ret, t.calls)) =
        some (some 0, [.log .unmodeled (.access 0xC020100C true 1 0)]) := by decide +kernel

/-- V-DP-5. -/
theorem test_modelConstR :
    after (exec (.modelConstR 0xC0400008) State.reset) (fun t => (t.ret, t.calls)) = some (some 0x12, []) ∧
      after (exec (.modelConstR 0xC040000C) State.reset) (fun t => (t.ret, t.calls.length)) = some (some 0, 1) := by
  decide +kernel

/-- V-IC-1: immediate delivery, once. -/
theorem test_icTrigger_delivers :
    after (exec (.icTrigger 5 0) (withLines [(5, ⟨true, 0⟩)]))
        (fun t => (service t, lineAt t 5, t.calls, t.ic.active.map (fun x => x.mask.getD 5 false))) =
      some ((some 5, true), ⟨false, 0⟩, [.raiseIrq], some true) := by decide +kernel

/-- V-IC-4, V-IC-9: with a line in service a trigger schedules; a retrigger replaces the countdown. -/
theorem test_icTrigger_schedules :
    after (exec (.icTrigger 6 0)
        { withLines [(6, ⟨true, 0⟩)] with ic := { (withLines [(6, ⟨true, 0⟩)]).ic with active := some ⟨5, []⟩ } })
        (fun t => (service t, lineAt t 6, t.calls)) = some ((some 5, false), ⟨true, 1⟩, []) ∧
      after (exec (.icTrigger 9 2) (withLines [(9, ⟨true, 5⟩)])) (fun t => lineAt t 9) = some ⟨true, 2⟩ := by
  decide +kernel

/-- V-IC-1: the acknowledge, and the read with nothing in service. -/
theorem test_icAck :
    after (exec .icAck { State.reset with ic := { State.reset.ic with active := some ⟨5, []⟩, irqLine := true } })
        (fun t => (t.ret, service t, t.calls)) = some (some 5, (none, false), [.lowerIrq]) ∧
      after (exec .icAck State.reset) (fun t => (t.ret, service t, t.calls)) =
        some (some 0, (none, false), [.lowerIrq]) := by decide +kernel

/-- V-IC-2: an enable of a pending line delivers nothing; V-IC-11: an id outside the lines. -/
theorem test_icEnableW :
    after (exec (.icEnableW 5) (withLines [(5, ⟨false, 1⟩)])) (fun t => (service t, lineAt t 5, t.calls)) =
        some ((none, false), ⟨true, 1⟩, []) ∧
      after (exec (.icEnableW 0xC8) State.reset) (fun t => t.calls) = some [.log .unmodeled (.icEnable 0xC8 0)] := by
  decide +kernel

/-- V-IC-7: the line in service is disabled. V-IC-8, V-IC-12: another line; several bits. -/
theorem test_icDisableW :
    after (exec (.icDisableW 1 0x20)
        { State.reset with ic := { State.reset.ic with active := some ⟨37, []⟩, irqLine := true } })
        (fun t => (service t, t.calls)) = some ((some 37, false), [.lowerIrq]) ∧
      after (exec (.icDisableW 0 0xA) { withLines [(0, ⟨true, 0⟩), (1, ⟨true, 0⟩), (2, ⟨true, 0⟩), (3, ⟨true, 7⟩)] with
          calls := [] }) (fun t => (lineAt t 0, lineAt t 1, lineAt t 2, lineAt t 3, t.calls)) =
        some (⟨true, 0⟩, ⟨false, 0⟩, ⟨true, 0⟩, ⟨false, 7⟩, []) := by decide +kernel

/-- V-IC-5: the highest ready line is delivered, the OS timer's waits; the countdowns go down. -/
theorem test_icTickWalk :
    after (exec .icTickWalk (withLines [(0x0A, ⟨true, 1⟩), (0x20, ⟨true, 1⟩), (0x30, ⟨true, 1⟩), (9, ⟨true, 3⟩)]))
        (fun t => (service t, lineAt t 0x0A, lineAt t 0x20, lineAt t 0x30, lineAt t 9)) =
      some ((some 0x30, true), ⟨true, 1⟩, ⟨true, 1⟩, ⟨false, 0⟩, ⟨true, 2⟩) ∧
    after (exec .icTickWalk (withLines [(0x0A, ⟨true, 1⟩), (3, ⟨true, 1⟩)])) service = some (some 3, true) := by
  decide +kernel

/-- V-TM-6, V-TM-7: a start of the OS channel arms its line; V-TM-8: a stop cancels nothing. -/
theorem test_tmrCtrlW :
    after (exec (.tmrCtrlW 2 1) { State.reset with tmr := State.reset.tmr.set 2 ⟨false, 0x2700, 0x100⟩ })
        (fun t => (tmrAt t 2, lineAt t 0x0A)) = some (⟨true, 0x2700, 0x100⟩, ⟨false, 0x27⟩) ∧
      after (exec (.tmrCtrlW 2 1) { State.reset with tmr := State.reset.tmr.set 2 ⟨false, 0x80, 0⟩ })
        (fun t => lineAt t 0x0A) = some ⟨false, 1⟩ ∧
      after (exec (.tmrCtrlW 2 0) { withLines [(0x0A, ⟨true, 9⟩)] with tmr := State.reset.tmr.set 2 ⟨true, 5, 6⟩ })
        (fun t => (tmrAt t 2, lineAt t 0x0A)) = some (⟨false, 5, 6⟩, ⟨true, 9⟩) := by decide +kernel

/-- A state with timer channel 1 at given values. -/
def timer1 (x : TimerChannel) : State := { State.reset with tmr := State.reset.tmr.set 1 x }

/-- The timer registers read as their own fields; V-TM-9: a reload write leaves the schedule. -/
theorem test_timer_registers :
    after (exec (.tmrCtrlR 1) (timer1 ⟨true, 5, 6⟩)) (·.ret) = some (some 1) ∧
      after (exec (.tmrReloadR 1) (timer1 ⟨true, 5, 6⟩)) (·.ret) = some (some 5) ∧
      after (exec (.tmrValueR 1) (timer1 ⟨true, 5, 6⟩)) (·.ret) = some (some 6) ∧
      after (exec .clockR { State.reset with clock := 0x300 }) (·.ret) = some (some 0x300) ∧
      after (exec (.tmrReloadW 1 0x500) (timer1 ⟨true, 5, 6⟩)) (fun t => tmrAt t 1) = some ⟨true, 0x500, 6⟩ := by
  decide +kernel

/-- V-TM-2: the clock wraps. V-TM-3, V-TM-4, V-TM-5: a channel counts to its reload value, wraps beyond it, or stands. -/
theorem test_tmrTick :
    after (exec .tmrTick { State.reset with clock := 0xFFF00 }) (·.clock) = some 0 ∧
      after (exec .tmrTick { State.reset with
          tmr := [⟨true, 0x300, 0x200⟩, ⟨true, 0x250, 0x200⟩, ⟨false, 0, 0x200⟩, ⟨true, 0, 0⟩] })
        (fun t => t.tmr.map (·.current)) = some [0x300, 0, 0x200, 0] := by decide +kernel

/-- V-HP-1: the compare value is quantized. -/
theorem test_hptCmpW :
    after (exec (.hptCmpW 3 0x123456) State.reset) (fun t => hptAt t 3) = some ⟨false, 0x23400, false⟩ ∧
      after (exec (.hptCmpW 3 0x3FF) State.reset) (fun t => (hptAt t 3).ocv) = some 0x300 := by decide +kernel

/-- The reset state with HPTimer channel 3 at given values. -/
def hpt3 (x : HptChannel) : State := { State.reset with hpt := State.reset.hpt.set 3 x }

/-- V-HP-2, V-HP-7: the HPTimer registers; a deactivation keeps the latch. -/
theorem test_hpt_registers :
    after (exec (.hptCmpR 3) (hpt3 ⟨true, 0x300, true⟩)) (·.ret) = some (some 0x300) ∧
      after (exec (.hptCtrlR 3) (hpt3 ⟨true, 0x300, true⟩)) (·.ret) = some (some 1) ∧
      after (exec (.hptCtrlW 3 0) (hpt3 ⟨true, 0x300, true⟩)) (fun t => hptAt t 3) = some ⟨false, 0x300, true⟩ ∧
      after (exec .hptStatusR (hpt3 ⟨true, 0x300, true⟩)) (fun t => (t.ret, hptAt t 3)) =
        some (some 8, ⟨true, 0x300, true⟩) ∧
      after (exec (.hptStatusW 8) (hpt3 ⟨true, 0x300, true⟩)) (fun t => hptAt t 3) = some ⟨true, 0x300, false⟩ ∧
      after (exec (.hptStatusW 0xF7) (hpt3 ⟨true, 0x300, true⟩)) (fun t => hptAt t 3) = some ⟨true, 0x300, true⟩ := by
  decide +kernel

/-- V-HP-2: a match sets the latch and, with `HPT_ONESHOT` clear, leaves the channel active. -/
theorem test_hptTick :
    after (exec .hptTick { hpt3 ⟨true, 0x300, false⟩ with clock := 0x300 }) (fun t => (hptAt t 3, lineAt t 0x10)) =
        some (⟨true, 0x300, true⟩, ⟨false, 0⟩) ∧
      after (exec .hptTick { hpt3 ⟨true, 0x300, false⟩ with clock := 0x400 }) (fun t => hptAt t 3) =
        some ⟨true, 0x300, false⟩ := by decide +kernel

/-- The reset state with DMA channel 0 at given values and some guest bytes. -/
def dma0 (x : DmaChannel) (m : Memory) : State := { State.reset with dma := [x, ⟨0, 0, 0⟩], mem := ⟨m, [], 0⟩ }

/-- The DMA registers: each write sets its own, each read returns its own. -/
theorem test_dma_registers :
    after (exec (.dmaSrcW 0 9) (dma0 ⟨1, 2, 3⟩ [])) (fun t => dmaAt t 0) = some ⟨9, 2, 3⟩ ∧
      after (exec (.dmaDstW 0 9) (dma0 ⟨1, 2, 3⟩ [])) (fun t => dmaAt t 0) = some ⟨1, 9, 3⟩ ∧
      after (exec (.dmaCountW 0 9) (dma0 ⟨1, 2, 3⟩ [])) (fun t => dmaAt t 0) = some ⟨1, 2, 9⟩ ∧
      after (exec (.dmaSrcR 0) (dma0 ⟨1, 2, 3⟩ [])) (·.ret) = some (some 1) ∧
      after (exec (.dmaDstR 0) (dma0 ⟨1, 2, 3⟩ [])) (·.ret) = some (some 2) ∧
      after (exec (.dmaCountR 0) (dma0 ⟨1, 2, 3⟩ [])) (·.ret) = some (some 3) := by decide +kernel

/-- V-DM-4 in small: an overlapping forward copy in blocks of 0x20 reads what the block before it wrote. -/
theorem test_dmaStart :
    after (exec (.dmaStart 0 1) (dma0 ⟨0x1000, 0x1010, 0x40⟩ ((List.range 0x40).map (fun i => (0x1000 + i, BitVec.ofNat 8 (i + 1))))))
        (fun t => (guestByte t.mem 0x102F, guestByte t.mem 0x1030, guestByte t.mem 0x1040, t.agents.cpuQueue)) =
      some (0x20, 0x11, 0x31, [⟨0x2F, 4⟩]) := by decide +kernel

/-- R61: a read of an address with memory behind it returns the last byte written, also to the same address modulo
2^32; with none behind it the byte written is not what the read returns. -/
theorem test_guest_memory :
    guestRead (guestWrite ⟨[], [(0x2000, 0x2FFF)], 5⟩ 0xFFFFFFFF [7, 8]) 0xFFFFFFFF 2 = [7, 8] ∧
      (guestWrite ⟨[], [(0x2000, 0x2FFF)], 5⟩ 0x2000 [7]).backed 0x2000 = false ∧
      guestAnswer (guestWrite ⟨[], [(0x2000, 0x2FFF)], 5⟩ 0x2000 [7]) 0x2000 = Config.guestNoMemory 5 0x2000 :=
  ⟨by decide +kernel, by decide +kernel, rfl⟩

/-- V-DM-5: bit 0 clear does nothing. V-DM-3: count 0 moves nothing and still owes its trigger. -/
theorem test_dmaStart_small :
    after (exec (.dmaStart 0 2) (dma0 ⟨0, 8, 4⟩ [(0, 7)])) (fun t => (t.mem.cells, t.agents.cpuQueue)) = some ([(0, 7)], []) ∧
      after (exec (.dmaStart 1 1) (dma0 ⟨0, 8, 4⟩ [(0, 7)])) (fun t => (t.mem.cells, t.agents.cpuQueue)) =
        some ([(0, 7)], [⟨0x74, 0⟩]) := by decide +kernel

/-- V-ED-7: a configuration register stores its value, its neighbours stay. -/
theorem test_edmReg :
    after (exec (.edmRegW .sizeA 4 0xFFFFFFFF) State.reset) (fun t => (edmacAt t 4).regs) =
        some ⟨0, 0, 0xFFFFFFFF, 0, 0, 0, 0, 0, 0⟩ ∧
      after (exec (.edmRegR .offN 4) { State.reset with
          edmac := State.reset.edmac.set 4 ⟨⟨1, 2, 3, 4, 5, 6, 7, 8, 9⟩, none, 0⟩ }) (·.ret) = some (some 8) := by
  decide +kernel

/-- V-ED-4: the least connection of a read channel; V-ED-2: a channel with no table entry. -/
theorem test_edmStart :
    after (exec (.edmStart 8 1) { State.reset with
        conn := { State.reset.conn with readConn := (State.reset.conn.readConn.set 5 (some 8)).set 3 (some 8) } })
        (fun t => ((edmacAt t 8).lastConn, (edmacAt t 8).started, t.agents.cpuQueue)) =
      some (some 3, 1, [⟨0x5F, 0⟩]) ∧
    after (exec (.edmStart 5 1) State.reset) (fun t => (t.fatal, t.ret, (edmacAt t 5).started)) =
      some (some (.edmacNoIrq 5), none, 0) := by decide +kernel

/-- V-ED-5: a write channel's own connection. -/
theorem test_edmStart_write :
    after (exec (.edmStart 0 1) { State.reset with
        conn := { State.reset.conn with writeConn := State.reset.conn.writeConn.set 0 (some 0x11) } })
        (fun t => ((edmacAt t 0).lastConn, t.agents.cpuQueue)) = some (some 0x11, [⟨0x5D, 0⟩]) := by decide +kernel

/-- V-ED-3, V-ED-6: read assignments. -/
theorem test_chswRW :
    after (exec (.chswRW false 8 5) State.reset) (fun t => (t.conn.readConn[5]?, t.calls.length)) =
        some (some (some 8), 0) ∧
      after (exec (.chswRW true 4 31) State.reset) (fun t => (t.conn.readConn[31]?, t.calls.length)) =
        some (some (some 23), 0) ∧
      after (exec (.chswRW false 8 32) State.reset) (fun t => (t.conn, t.calls.length)) = some (State.reset.conn, 1) ∧
      after (exec (.chswRW false 2 1) State.reset) (fun t => (t.conn, t.calls.length)) = some (State.reset.conn, 1) ∧
      after (exec (.chswRW false 0 1) State.reset) (fun t => (t.conn, t.calls.length)) = some (State.reset.conn, 1) := by
  decide +kernel

/-- V-ED-5: write assignments; V-ED-6: a channel-switch read is unmodeled. -/
theorem test_chswWW :
    after (exec (.chswWW true 0 0x11) State.reset) (fun t => t.conn.writeConn[0]?) = some (some (some 0x11)) ∧
      after (exec (.chswWW false 12 0x11) State.reset) (fun t => t.conn.writeConn[7]?) = some (some (some 0x11)) ∧
      after (exec (.chswRead 0xC0F05000) State.reset) (fun t => (t.ret, t.calls)) =
        some (some 0, [.log .unmodeled (.access 0xC0F05000 false 0 0)]) := by decide +kernel

/-- An SD controller with a different value in every register. -/
def sdFull : State :=
  { State.reset with sd := { State.reset.sd with
      cmdLo := 1, cmdHi := 2, resp := ⟨3, 4, 5, 6⟩, status := 7, dmaAddr := 8, dmaCount := 9, dmaProgress := 10 } }

/-- The SDIO registers read as their own fields. -/
theorem test_sd_reads :
    ([.sdCmdloR, .sdCmdhiR, .sdRespR 0, .sdRespR 1, .sdRespR 2, .sdRespR 3, .sdStatusR, .sdDmaregR .addr,
        .sdDmaregR .count, .sdProgressR, .sdDmactrlR, .sdIrqenR] : List Instr).map
        (fun i => after (exec i sdFull) (·.ret)) =
      [1, 2, 3, 4, 5, 6, 7, 8, 9, 10, 0, 0].map (fun v => some (some v)) := by decide +kernel

/-- The SDIO storage writes: each sets its own register. V-SD-9: the whole of SD_CMD_HI is stored. -/
theorem test_sd_writes :
    after (exec (.sdCmdloW 0x77) sdFull) (·.sd) = some { sdFull.sd with cmdLo := 0x77 } ∧
      after (exec (.sdCmdhiW 0xFFFF5100) sdFull) (·.sd) = some { sdFull.sd with cmdHi := 0xFFFF5100 } ∧
      after (exec (.sdDmaregW .addr 0x77) sdFull) (·.sd) = some { sdFull.sd with dmaAddr := 0x77 } ∧
      after (exec (.sdDmaregW .count 0x77) sdFull) (·.sd) = some { sdFull.sd with dmaCount := 0x77 } := by decide +kernel

/-- A CMD17 or CMD18 set up as in V-SD-1, with 8 bytes to move. -/
def sdAsked (hi : Word) (irqEn dma : Bool) (rs : List SdResponse) : State :=
  { State.reset with
    sd := { State.reset.sd with cmdHi := hi, dmaAddr := 0x80000, dmaCount := 11, irqEn := irqEn, dmaEnabled := dma }
    env := { Env.reset with sdResponses := rs, sdBytes := [1, 2, 3, 4, 5, 6, 7, 8, 9] } }

/-- V-SD-1, V-SD-7: the issue moves whole word-quads, sets DONE and DATA, and owes one trigger. -/
theorem test_sdIssue :
    after (exec (.sdIssue 1) (sdAsked 0xFFFF5100 true true [.resp4 ⟨#[0, 0, 9, 0], rfl⟩]))
        (fun t => (t.sd, t.agents.cpuQueue, t.calls, guestRead t.mem 0x80000 8)) =
      some (⟨0, 0xFFFF5100, ⟨0x900, 0, 0, 0⟩, 3, 0x80000, 11, 8, true, true, false, none⟩, [⟨0x4A, 0⟩],
        [.sdCommand 17 0], [1, 2, 3, 4, 5, 6, 7, 8]) := by decide +kernel

/-- V-SD-3: a multi-block command waits for its interrupt; V-SD-4: a failure. -/
theorem test_sdIssue_waits :
    after (exec (.sdIssue 1) (sdAsked 0x5200 true false [.resp4 ⟨#[0, 0, 9, 0], rfl⟩]))
        (fun t => (t.sd.status, t.sd.outstanding, t.sd.irqPending)) = some (1, some ⟨18, .read, true⟩, false) ∧
    after (exec (.sdIssue 1) (sdAsked 0x5100 true true [.fail]))
        (fun t => (t.sd, t.agents.cpuQueue, t.mem.cells)) =
      some (⟨0, 0x5100, ⟨0, 0, 0, 0⟩, 0x8001, 0x80000, 11, 0, true, true, false, none⟩, [⟨0x4A, 0⟩], []) := by decide +kernel

/-- V-SD-2, V-SD-3: enabling DMA runs the waiting data phase; a write command sends the guest's bytes. -/
theorem test_sdDmactrlW :
    after (exec (.sdDmactrlW 1) { sdAsked 0x5200 true false [] with
        sd := { (sdAsked 0x5200 true false []).sd with outstanding := some ⟨18, .read, true⟩, status := 1 } })
        (fun t => (t.sd.status, t.sd.dmaProgress, t.sd.irqPending, t.agents.cpuQueue, guestByte t.mem 0x80007)) =
      some (3, 8, false, [⟨0x4A, 0⟩], 8) ∧
    after (exec (.sdDmactrlW 1) { sdAsked 0x5800 false false [] with
        mem := ⟨[(0x80000, 0x10), (0x80001, 0), (0x80002, 0), (0x80003, 0x13)], [], 0⟩
        sd := { (sdAsked 0x5800 false false []).sd with dmaCount := 4, outstanding := some ⟨24, .write, false⟩ } })
        (fun t => t.calls.reverse) =
      some [.sdWriteByte 0x10, .sdWriteByte 0, .sdWriteByte 0, .sdWriteByte 0x13] := by decide +kernel

/-- V-SD-2: enabling interrupts hands the waiting completion over, once. -/
theorem test_sdIrqenW :
    after (exec (.sdIrqenW 1) { State.reset with sd := { State.reset.sd with irqPending := true } })
        (fun t => (t.sd.irqEn, t.sd.irqPending, t.agents.cpuQueue)) = some (true, false, [⟨0x4A, 0⟩]) ∧
      after (exec (.sdIrqenW 2) { State.reset with sd := { State.reset.sd with irqPending := true, irqEn := true } })
        (fun t => (t.sd.irqEn, t.sd.irqPending, t.agents.cpuQueue)) = some (false, true, []) := by decide +kernel

/-- The reset state with an IDE script: one value, whether a completion is signalled, whether ATA interrupts are on. -/
def ideScript (done en : Bool) : State :=
  scripted { Env.reset with ideValues := [0x50], ideDone := [done], ataIrqEnabled := [en] }

/-- V-CF-6, V-CF-7: forwarded accesses and their completions. -/
theorem test_cfAta :
    after (exec (.cfAtaW 0x1C 0x20) (ideScript true true)) (fun t => (t.cf.irqPending, t.agents.cpuQueue, t.calls)) =
        some (true, [⟨0x35, 0⟩], [.ideWrite 0x1C 0x20]) ∧
      after (exec (.cfAtaR 4) (ideScript true false)) (fun t => (t.ret, t.cf.irqPending, t.agents.cpuQueue, t.calls)) =
        some (some 0x50, false, [], [.ideRead 4]) ∧
      after (exec .cfIdeDone (ideScript false true)) (fun t => (t.cf.irqPending, t.agents.cpuQueue)) =
        some (true, [⟨0x35, 0⟩]) := by decide +kernel

/-- V-CF-6: the status read clears the flag, the flag's own register does not. -/
theorem test_cfStatusR :
    after (exec .cfStatusR { ideScript false true with cf := { State.reset.cf with irqPending := true } })
        (fun t => (t.ret, t.cf.irqPending, t.calls)) = some (some 0x50, false, [.ideRead 0x1C]) ∧
      after (exec .cfIntstatR { State.reset with cf := { State.reset.cf with irqPending := true } })
        (fun t => (t.ret, t.cf.irqPending)) = some (some 1, true) := by decide +kernel

/-- The CF DMA registers. -/
theorem test_cf_registers :
    after (exec (.cfDmaregW .addr 9) State.reset) (·.cf) = some { State.reset.cf with dmaAddr := 9 } ∧
      after (exec (.cfDmaregW .count 9) State.reset) (·.cf) = some { State.reset.cf with dmaCount := 9 } ∧
      after (exec (.cfDmaenW 3) State.reset) (·.cf) = some { State.reset.cf with dmaEnabled := true } ∧
      ([.cfDmaregR .addr, .cfDmaregR .count, .cfDmaenR] : List Instr).map
          (fun i => after (exec i { State.reset with cf := ⟨5, 6, true, none, false⟩ }) (·.ret)) =
        [some (some 5), some (some 6), some (some 1)] := by decide +kernel

/-- V-CF-1, V-CF-8: a request is flagged, a pending one replaced with a diagnostic; V-CF-3, V-CF-4. -/
theorem test_cfDmaReq :
    after (exec (.cfDmaReq 0x39) { State.reset with cf := ⟨0x90000, 0x13, true, some ⟨.write, 1, 2, 1⟩, false⟩ })
        (fun t => (t.cf.pendingDma, t.calls)) =
      some (some ⟨.read, 0x90000, 4, 0⟩, [.log .protocol (.cfPending 0)]) ∧
    after (exec (.cfDmaReq 0x39) State.reset) (fun t => (t.fatal, t.cf.pendingDma)) =
      some (some .cfDmaNotEnabled, none) ∧
    after (exec (.cfDmaReq 0x12) State.reset) (fun t => (t.fatal, t.calls)) =
      some (none, [.log .unmodeled (.cfDmaCtrl 0x12 0)]) := by decide +kernel

/-- The reset state with a CF transfer pending and a backend script. -/
def cfPending (p : CfDma) (ready : List Bool) (bytes : List Byte) : State :=
  { scripted { Env.reset with cfReady := ready, cfBytes := bytes } with
    cf := ⟨0x90000, 0x10, true, some p, false⟩, agents := ⟨false, [], .cf⟩ }

/-- V-CF-1: a slice of two words, and the slice that completes. V-CF-2: a backend not ready. -/
theorem test_cfDmaSlice :
    after (exec .cfDmaSlice (cfPending ⟨.read, 0x90000, 4, 0⟩ [true, true] [1, 2, 3, 4, 5, 6, 7, 8]))
        (fun t => (t.cf.pendingDma, t.agents.tickPhase, guestRead t.mem 0x90000 8)) =
      some (some ⟨.read, 0x90000, 4, 2⟩, .timers, [1, 2, 3, 4, 5, 6, 7, 8]) ∧
    after (exec .cfDmaSlice (cfPending ⟨.read, 0x90000, 4, 3⟩ [true] [1, 2, 3, 4]))
        (fun t => (t.cf.pendingDma, t.agents.tickPhase, guestByte t.mem 0x9000C)) = some (none, .cfIrq, 1) ∧
    after (exec .cfDmaSlice (cfPending ⟨.read, 0x90000, 4, 2⟩ [false] [1]))
        (fun t => (t.cf.pendingDma, t.agents.tickPhase, t.mem.cells)) = some (some ⟨.read, 0x90000, 4, 2⟩, .timers, []) := by
  decide +kernel

/-- R287 "break": a backend that stops being ready in the middle of a slice. -/
theorem test_cfDmaSlice_break :
    after (exec .cfDmaSlice (cfPending ⟨.read, 0x90000, 4, 0⟩ [true, false, true] [1, 2, 3, 4, 5, 6, 7, 8]))
        (fun t => (t.cf.pendingDma, t.agents.tickPhase, t.env.cfReady, t.env.cfBytes, guestRead t.mem 0x90000 4)) =
      some (some ⟨.read, 0x90000, 4, 1⟩, .timers, [true], [5, 6, 7, 8], [1, 2, 3, 4]) := by decide +kernel

/-- V-CF-9: a write transfer; V-CF-5: one of no words. -/
theorem test_cfDmaSlice_write :
    after (exec .cfDmaSlice { cfPending ⟨.write, 0x90000, 1, 0⟩ [true] [] with
        mem := ⟨[(0x90000, 9), (0x90001, 0), (0x90002, 0), (0x90003, 8)], [], 0⟩ })
        (fun t => (t.cf.pendingDma, t.calls.reverse)) =
      some (none, [.cfWriteByte 9, .cfWriteByte 0, .cfWriteByte 0, .cfWriteByte 8]) ∧
    after (exec .cfDmaSlice (cfPending ⟨.read, 0x90000, 0, 0⟩ [] [])) (fun t => (t.cf.pendingDma, t.agents.tickPhase)) =
      some (none, .cfIrq) := by decide +kernel

/-- V-CF-1, V-TK-4: the CF_IRQ step. -/
theorem test_cfDmaIrq :
    after (exec .cfDmaIrq { withLines [(0x36, ⟨true, 0⟩)] with agents := ⟨false, [], .cfIrq⟩ })
        (fun t => (service t, t.agents.tickPhase)) = some ((some 0x36, true), .timers) := by decide +kernel

/-- The reset state with bank 0 in a state, some of its bytes given. -/
def bank0 (st : FlashState) (busy : BitVec 8) (m : Memory) : State :=
  { State.reset with flash := [⟨st, busy, m⟩, ⟨.read, 0, []⟩] }

/-- Bank 0 and the number of diagnostics after an operation. -/
def flashAfter (i : Instr) (s : State) : Option (FlashBank × Nat) :=
  after (exec i s) (fun t => (bankAt t 0, t.calls.length))

/-- The image of V-FL-1 round word 0x100, and two bytes of another block. -/
def words100 : Memory := [(0x200, 0x34), (0x201, 0x12), (0x202, 0x78), (0x203, 0x56), (0x1000, 1), (0x1FFF, 2)]

/-- V-FL-10, V-FL-14: reads of data, to the end of the bank. -/
theorem test_flRead :
    after (exec (.flRead 0 0x200) (bank0 .unlock2 0 words100)) (fun t => (t.ret, t.flash)) =
        some (some 0x56781234, (bank0 .unlock2 0 words100).flash) ∧
      after (exec (.flRead 0 0x1FFE) (bank0 .read 0 [(0x1FFE, 0xCD), (0x1FFF, 0xAB)])) (·.ret) = some (some 0xABCD) := by
  decide +kernel

/-- V-FL-5: the busy statuses and the end of the erase. -/
theorem test_flBusyRead :
    after (exec (.flBusyRead 0 6) (bank0 .blockEraseBusy 3 [])) (fun t => (t.ret, (bankAt t 0).busyReads)) =
        some (some 0x40, 4) ∧
      after (exec (.flBusyRead 0 6) (bank0 .blockEraseBusy 4 []))
        (fun t => (t.ret, (bankAt t 0).busyReads, (bankAt t 0).state)) = some (some 0x80, 0, .read) := by decide +kernel

/-- V-FL-1, V-FL-4, V-FL-6, V-FL-13: the command cycles, each from its state to its next. -/
theorem test_flash_commands :
    flashAfter (.flUnlock1 0 0xAAA 0xFFFF00AA) (bank0 .read 0 words100) = some (⟨.unlock2, 0, words100⟩, 0) ∧
      flashAfter (.flUnlock2 0 0x554 0x55) (bank0 .unlock2 0 words100) = some (⟨.unlocked, 0, words100⟩, 0) ∧
      flashAfter (.flCmdProgram 0 0xAAA 0xA0) (bank0 .unlocked 0 words100) = some (⟨.program, 0, words100⟩, 0) ∧
      flashAfter (.flCmdErase 0 0xAAA 0x80) (bank0 .unlocked 0 words100) = some (⟨.erase1, 0, words100⟩, 0) ∧
      flashAfter (.flEraseUnlock1 0 0xAAA 0xAA) (bank0 .erase1 0 words100) = some (⟨.erase2, 0, words100⟩, 0) ∧
      flashAfter (.flEraseUnlock2 0 0x554 0x55) (bank0 .erase2 0 words100) = some (⟨.erase3, 0, words100⟩, 0) ∧
      flashAfter (.flBypassEraseEntry 0 0 0x80) (bank0 .read 0 words100) = some (⟨.unlockBypassErase, 0, words100⟩, 0) ∧
      flashAfter (.flBypassProgramEntry 0 0x20 0xA0) (bank0 .read 0 words100) = some (⟨.program, 0, words100⟩, 0) := by
  decide +kernel

/-- V-FL-4, V-FL-5, V-FL-6: the erases. -/
theorem test_flash_erases :
    flashAfter (.flChipErase 0 0xAAA 0x10) (bank0 .erase3 0 words100) = some (⟨.read, 0, []⟩, 0) ∧
      flashAfter (.flBypassChipErase 0 0xEEE 0x10) (bank0 .unlockBypassErase 0 words100) = some (⟨.read, 0, []⟩, 0) ∧
      flashAfter (.flBlockErase 0 0x1200 0x30) (bank0 .erase3 0 words100) =
        some (⟨.blockEraseBusy, 0, [(0x200, 0x34), (0x201, 0x12), (0x202, 0x78), (0x203, 0x56)]⟩, 0) ∧
      flashAfter (.flBypassBlockErase 0 0 0x30) (bank0 .unlockBypassErase 0 words100) =
        some (⟨.blockEraseBusy, 0, [(0x1000, 1), (0x1FFF, 2)]⟩, 0) := by decide +kernel

/-- V-FL-1, V-FL-12: programming is an AND; the word at 0x555 is data like any other. -/
theorem test_flProgramData :
    flashAfter (.flProgramData 0 0x200 0x0F0F) (bank0 .program 0 [(0x200, 0x34), (0x201, 0x12)]) =
        some (⟨.read, 0, [(0x200, 0x04), (0x201, 0x02)]⟩, 0) ∧
      flashAfter (.flProgramData 0 0xAAA 0xAA) (bank0 .program 0 []) = some (⟨.read, 0, [(0xAAA, 0xAA), (0xAAB, 0)]⟩, 0) := by
  decide +kernel

/-- V-FL-3, V-FL-7, V-FL-8: the unexpected cycles. -/
theorem test_flBadCycle :
    flashAfter (.flBadCycle 0 0x246 0x55) (bank0 .unlock2 0 words100) = some (⟨.read, 0, words100⟩, 1) ∧
      flashAfter (.flBadCycle 0 0 0xF0) (bank0 .blockEraseBusy 2 words100) = some (⟨.read, 0, words100⟩, 1) ∧
      flashAfter (.flBadCycle 0 0x200 0x1111) (bank0 .read 0 words100) = some (⟨.read, 0, words100⟩, 1) := by decide +kernel

/-- V-FL-11: the pass-through. -/
theorem test_flPass :
    flashAfter (.flPassW 0 4 0xABCD)
        { bank0 .read 0 [(6, 0x11), (7, 0x22)] with cfg := { Config.tc with flashSmEnabled := false } } =
      some (⟨.read, 0, [(4, 0xCD), (5, 0xAB), (6, 0x11), (7, 0x22)]⟩, 0) ∧
    after (exec (.flPassR 0 4)
        { bank0 .read 0 [(4, 0xCD), (5, 0xAB), (6, 0x11), (7, 0x22)] with
          cfg := { Config.tc with flashSmEnabled := false } }) (·.ret) = some (some 0x2211ABCD) := by decide +kernel

/-- V-DS-10: the palette registers. -/
theorem test_palettes :
    after (exec (.pal4W 3 0xFF102030) { State.reset with disp := { State.reset.disp with invalidateAll := false } })
        (fun t => (t.disp.pal4[3]?, t.disp.invalidateAll)) = some (some ⟨0x10, 0x20, 0x30, 0xFF⟩, true) ∧
      after (exec (.pal8W 255 0x00010203) State.reset) (fun t => t.disp.pal8[255]?) = some (some ⟨1, 2, 3, 0⟩) ∧
      after (exec (.pal4R 3) { State.reset with
          disp := { State.reset.disp with pal4 := State.reset.disp.pal4.set 3 ⟨0x10, 0x20, 0x30, 0xFF⟩ } }) (·.ret) =
        some (some 0xFF102030) ∧
      after (exec (.pal8R 255) { State.reset with
          disp := { State.reset.disp with pal8 := State.reset.disp.pal8.set 255 ⟨1, 2, 3, 4⟩ } }) (·.ret) =
        some (some 0x04010203) := by decide +kernel

/-- The plane addresses. -/
theorem test_planeAddr :
    after (exec (.planeAddrW .bmp 5) State.reset) (fun t => (t.disp.bmpAddr, t.disp.yuvAddr)) = some (5, 0) ∧
      after (exec (.planeAddrW .yuv 5) State.reset) (fun t => (t.disp.bmpAddr, t.disp.yuvAddr)) = some (0, 5) ∧
      after (exec (.planeAddrR .bmp) { State.reset with disp := { State.reset.disp with bmpAddr := 7, yuvAddr := 8 } })
        (·.ret) = some (some 7) ∧
      after (exec (.planeAddrR .yuv) { State.reset with disp := { State.reset.disp with bmpAddr := 7, yuvAddr := 8 } })
        (·.ret) = some (some 8) := by decide +kernel

/-- V-DS-4, V-DS-7, V-DS-8: the conversion, with negative products and clipping. -/
theorem test_yuv2rgb :
    [yuv2rgb .bt601 128 128 128, yuv2rgb .bt601 100 128 200, yuv2rgb .bt601 50 128 200, yuv2rgb .bt709 100 128 200,
        yuv2rgb .bt601 128 0 128, yuv2rgb .bt601 255 128 255] =
      [0x00808080, 0x00C83164, 0x00960032, 0x00D54364, 0x0080AC00, 0x00FFA5FF] := by decide +kernel

/-- The planes of V-DS-4, one bitmap pixel of index 1. -/
def planes : State :=
  { State.reset with
    disp := { State.reset.disp with bmpAddr := 0x100000, yuvAddr := 0x110000, pal8 := State.reset.disp.pal8.set 1 ⟨0xFF, 0, 0, 0⟩ }
    mem := guestWrite (guestWrite ⟨[], [], 0⟩ 0x100000 (List.replicate 6 0 ++ 1 :: List.replicate 9 0)) 0x110000
      [0x80, 0x80, 0x80, 0x80, 0x80, 100, 200, 50] }

/-- V-DS-1, V-DS-3, V-DS-4: the first composite. -/
theorem test_dispCompose :
    after (exec .dispCompose planes) (fun t => (t.surface, t.calls, t.disp.invalidateAll)) =
      some ([[0x808080, 0x808080, 0x808080, 0x808080], [0x808080, 0x808080, 0xFF0000, 0x808080],
        [0xC83164, 0xC83164, 0x960032, 0x960032], [0xC83164, 0xC83164, 0x960032, 0x960032]],
        [.blitRows 0 3, .resize 4 4], false) := by decide +kernel

/-- V-DS-6, V-TK-3: the host's operations. -/
theorem test_host :
    after (exec .dispInvalidate { State.reset with disp := { State.reset.disp with invalidateAll := false } })
        (fun t => t.disp.invalidateAll) = some true ∧
      after (exec .hostHalt State.reset) (fun t => t.agents.cpuHalted) = some true ∧
      after (exec .hostRelease { State.reset with agents := ⟨true, [], .timers⟩ }) (fun t => t.agents.cpuHalted) =
        some false := by decide +kernel

/-- V-TK-2: the walk delivers another line first, the HPTimer's own trigger then only schedules. -/
theorem test_tick :
    after (exec .tick { withLines [(0x10, ⟨true, 0⟩), (0x20, ⟨true, 1⟩)] with
        clock := 0x200, hpt := State.reset.hpt.set 3 ⟨true, 0x300, false⟩ })
        (fun t => (t.clock, service t, lineAt t 0x10, t.agents.tickPhase)) =
      some (0x300, (some 0x20, true), ⟨true, 1⟩, .cf) := by decide +kernel

/-! ## Witnesses: states and operands that meet the hypotheses of each statement, clause by clause -/

/-- A display register at the end of its range, and the CF command register. -/
theorem witness_RegisterOperationsRoundTrip :
    (∃ (w : View) (i : Instr) (r : RegName) (write : Bool) (v a : Word) (h : Handler),
      w.cfg.wf = true ∧ i.wf w.cfg = true ∧ i.reg = some (r, write, v) ∧ addrOf w.cfg r = some a ∧
      selectHandler w.cfg a = some h ∧ r.inKind h.kind = true ∧
      (h.kind = .cf → inRange w.cfg.cfAtaBase w.cfg.cfAtaLast a = false)) ∧
    (addrOf Config.tc .cfDmaCtrl = some 0xC060020C ∧
      (selectHandler Config.tc 0xC060020C).map (·.kind) = some .cf ∧
      inRange Config.tc.cfAtaBase Config.tc.cfAtaLast 0xC060020C = false) :=
  ⟨⟨View.reset Config.tc, .pal8W 255 5, .pal8 255, true, 5, 0xC0F14BFC, ⟨"DISPLAY", 0xC0F14000, 0xC0F14FFF, .display, 0⟩,
    by decide +kernel⟩, by decide +kernel⟩

/-- A write cycle, a busy read and a pass-through write, each the row its bank's state gives. -/
theorem witness_FlashOperationsRoundTrip :
    ∀ p ∈ ([(bank1In .erase3, .flBlockErase 1 0x1FFF 0x30), (bank1In .blockEraseBusy, .flBusyRead 1 0),
        (⟨{ Config.tc with flashSmEnabled := false }, [.read, .read]⟩, .flPassW 1 5 0xAA)] : List (View × Instr)),
      p.1.cfg.wf = true ∧ p.2.wf p.1.cfg = true ∧
      (match p.2.flashAccess with
        | some (b, off, write, v) =>
          (selectHandler p.1.cfg (p.1.cfg.bankBase b + BitVec.ofNat 32 off)).map (·.kind) = some (.flash b) ∧
          (if write then p.2 = (selectFlashWrite p.1.cfg (p.1.flashState b) off v).op b off v
            else p.2 = (selectFlashRead p.1.cfg (p.1.flashState b)).op b off)
        | none => False) := by
  intro p hp
  fin_cases hp <;> refine ⟨by decide +kernel, by decide +kernel, ?_⟩ <;> exact ⟨by decide +kernel, by decide +kernel⟩

/-- Each window at its first or last place. -/
theorem witness_WindowOperationsRoundTrip :
    ∃ hc hf : Handler, hc.kind = .chsw ∧ hf.kind = .cf ∧
      (Config.tc.inChsw .r0 63 = true ∧ selectHandler Config.tc (Config.tc.chswR0.base + BitVec.ofNat 32 63) = some hc) ∧
      (Config.tc.inChsw .r1 0 = true ∧ selectHandler Config.tc (Config.tc.chswR1.base + BitVec.ofNat 32 0) = some hc ∧
        chswOffset Config.tc .r0 (Config.tc.chswR1.base + BitVec.ofNat 32 0) = none) ∧
      (Config.tc.inChsw .w0 15 = true ∧ selectHandler Config.tc (Config.tc.chswW0.base + BitVec.ofNat 32 15) = some hc ∧
        chswOffset Config.tc .r0 (Config.tc.chswW0.base + BitVec.ofNat 32 15) = none ∧
        chswOffset Config.tc .r1 (Config.tc.chswW0.base + BitVec.ofNat 32 15) = none) ∧
      (Config.tc.inChsw .w1 0 = true ∧ selectHandler Config.tc (Config.tc.chswW1.base + BitVec.ofNat 32 0) = some hc ∧
        chswOffset Config.tc .r0 (Config.tc.chswW1.base + BitVec.ofNat 32 0) = none ∧
        chswOffset Config.tc .r1 (Config.tc.chswW1.base + BitVec.ofNat 32 0) = none ∧
        chswOffset Config.tc .w0 (Config.tc.chswW1.base + BitVec.ofNat 32 0) = none) ∧
      (∀ off ∈ [0, 0x1C, 0xFF], Config.tc.inAtaWin off = true ∧
        selectHandler Config.tc (Config.tc.cfAtaBase + BitVec.ofNat 32 off) = some hf) :=
  ⟨⟨"CHSW", 0xC0F05000, 0xC0F053FF, .chsw, 0⟩, ⟨"CF", 0xC0600000, 0xC062FFFF, .cf, 0⟩, by decide +kernel⟩

/-- An address of each class. -/
theorem witness_OtherOperationsRoundTrip :
    (selectHandler Config.tc 0xD0000000 = none ∧ known Config.tc 0xD0000000 = false) ∧
    (selectHandler Config.tc 0xCFFFFFFF = none ∧ known Config.tc 0xCFFFFFFF = true) ∧
    (selectHandler Config.tc 0xC0F053FF).map (·.kind) = some .chsw ∧
    ((selectHandler Config.tc 0xC0400008).map (·.kind) = some .modelConst ∧ modelConstAt Config.tc 0xC0400008 ≠ none) ∧
    ((selectHandler Config.tc 0xC04000FF).map (·.kind) = some .modelConst ∧
      modelConstAt Config.tc 0xC04000FF = none) := by decide +kernel

/-- A place with no register, a read of a write-only register, a write of a read-only one. -/
theorem witness_WrongAccessesAreUnmodeled :
    ∀ p ∈ ([(0xC020100C, true), (0xC0201010, false), (0xC0242014, true)] : List (Word × Bool)),
      ∃ h, selectHandler Config.tc p.1 = some h ∧
        h.kind ∈ [Kind.ic, .timer, .hptimer, .dma, .edmac, .sdio, .cf, .display] ∧
        (h.kind = .cf → inRange Config.tc.cfAtaBase Config.tc.cfAtaLast p.1 = false) ∧
        ∀ r, regAt Config.tc h.kind p.1 = some r → (if p.2 then writable r else readable r) = false := by
  intro p hp
  fin_cases hp
  · refine ⟨⟨"IC", 0xC0201000, 0xC02012FF, .ic, 0⟩, by decide +kernel, by decide +kernel, by decide +kernel, ?_⟩
    have h : regAt Config.tc .ic 0xC020100C = none := by decide +kernel
    intro r hr
    exact absurd (h.symm.trans hr) (by simp)
  · refine ⟨⟨"IC", 0xC0201000, 0xC02012FF, .ic, 0⟩, by decide +kernel, by decide +kernel, by decide +kernel, ?_⟩
    have h : regAt Config.tc .ic 0xC0201010 = some .icEnable := by decide +kernel
    intro r hr
    obtain rfl := Option.some.inj (h.symm.trans hr)
    rfl
  · refine ⟨⟨"HPTIMER", 0xC0242000, 0xC0243FFF, .hptimer, 0⟩, by decide +kernel, by decide +kernel, by decide +kernel, ?_⟩
    have h : regAt Config.tc .hptimer 0xC0242014 = some .clock := by decide +kernel
    intro r hr
    obtain rfl := Option.some.inj (h.symm.trans hr)
    rfl

/-- CF_DMA_CTRL, with a value that is neither command; the first place after the last sub-range; a flash handler whose
bank is not there. -/
theorem witness_WrongAccessesAreUnmodeled_more :
    ((selectHandler Config.tc 0xC060020C).map (·.kind) = some .cf ∧
      inRange Config.tc.cfAtaBase Config.tc.cfAtaLast 0xC060020C = false ∧
      regAt Config.tc .cf 0xC060020C = some .cfDmaCtrl ∧ (0x3A : Word) ≠ 0x39 ∧ (0x3A : Word) ≠ Config.tc.cfDmaWriteCmd) ∧
    ((selectHandler Config.tc 0xC0F05310).map (·.kind) = some .chsw ∧
      ∀ sub ∈ [ChswSub.r0, .r1, .w0, .w1],
        4 * (Config.tc.chsw sub).map.length ≤ (0xC0F05310 - (Config.tc.chsw sub).base).toNat) ∧
    ((selectHandler { Config.tc with banks := [⟨0xF8000000, 0x2000, []⟩] } 0xF0000000).map (·.kind) = some (.flash 1) ∧
      Cfg.bankSize { Config.tc with banks := [⟨0xF8000000, 0x2000, []⟩] } 1 ≤
        (0xF0000000 - Cfg.bankBase { Config.tc with banks := [⟨0xF8000000, 0x2000, []⟩] } 1).toNat) := by decide +kernel

theorem witness_StepRunsDecoded :
    (asked (.acc 0xC0201010 true 5)).fatal = none ∧
      decodesTo (asked (.acc 0xC0201010 true 5)).view (encodeRequest (.acc 0xC0201010 true 5), .icEnableW 5) = true ∧
      (agentOf (.icEnableW 5) = .cpu → (asked (.acc 0xC0201010 true 5)).agents.cpuQueue = [] ∧
        (asked (.acc 0xC0201010 true 5)).agents.cpuHalted = false) := by decide +kernel

/-- A trigger owed, the schedule empty, saying so, or holding a new access. -/
theorem witness_OwedTriggersRunFirst :
    ∃ s : State, s.fatal = none ∧ s.agents.cpuQueue = [⟨0x7F, 0⟩] ∧ (0x7F : Word).toNat < s.cfg.maxIrq ∧
      s.schedule = [] ∧
      decodesTo s.view (encodeRequest (.acc 0xC0201004 false 0), .icAck) = true ∧ agentOf .icAck = .cpu :=
  ⟨{ State.reset with agents := ⟨false, [⟨0x7F, 0⟩], .timers⟩ }, by decide +kernel⟩

theorem witness_AgentsWithoutAStep :
    (∃ s : State, s.fatal = some (.edmacNoIrq 5)) ∧
    ∃ s : State, s.fatal = none ∧ s.agents.cpuHalted = true ∧ s.agents.cpuQueue = [] ∧
      decodesTo s.view (encodeRequest (.acc 0xC0201004 false 0), .icAck) = true ∧ agentOf .icAck = .cpu ∧
      decodesTo s.view (encodeRequest (.tick .run), .tick) = true ∧ agentOf .tick = .ticker :=
  ⟨⟨{ State.reset with fatal := some (.edmacNoIrq 5) }, rfl⟩,
    ⟨{ State.reset with agents := ⟨true, [], .timers⟩ }, by decide +kernel⟩⟩

/-- A copy to be made by the next step. -/
def copyAsked : State :=
  { dma0 ⟨0, 0xFFFFFFFE, 4⟩ [(0, 7), (3, 9)] with schedule := [.request (encodeRequest (.acc 0xC0A00008 true 1))] }

theorem witness_MemoryStaysCanonical : copyAsked.memOk ∧ ∃ t, step copyAsked = .next t := by
  refine ⟨⟨by decide +kernel, fun b => ?_⟩, has_next (f := fun t => t.mem) (by decide +kernel)⟩
  match b with
  | 0 => decide +kernel
  | 1 => decide +kernel
  | n + 2 => rfl

/-- A line in service, the next step an acknowledge. -/
def ackAsked : State :=
  { asked (.acc 0xC0201004 false 0) with
    ic := { State.reset.ic with active := some ⟨127, List.replicate 128 false⟩, irqLine := true } }

theorem witness_InterruptsStaySound : ackAsked.icOk ∧ ∃ t, step ackAsked = .next t := by
  refine ⟨⟨by decide +kernel, fun x hx => ?_, by decide +kernel⟩, has_next (f := service) (by decide +kernel)⟩
  cases hx
  decide +kernel

theorem witness_ClockStaysOnItsValues :
    { asked (.tick .run) with clock := 0xFFF00 }.clockOk ∧
      ∃ t, step { asked (.tick .run) with clock := 0xFFF00 } = .next t := by
  refine ⟨⟨by decide +kernel, ⟨by decide +kernel, by decide +kernel⟩, ?_⟩,
    has_next (f := fun t => t.clock) (by decide +kernel)⟩
  show ∀ ch ∈ State.reset.hpt, onClock Config.tc ch.ocv
  intro ch h
  have : ch = ⟨false, 0, false⟩ := List.eq_of_mem_replicate h
  subst this
  exact ⟨by decide, by decide⟩

/-- A bank at its last busy read, the next step a read of it. -/
def busyAsked : State :=
  { bank0 .blockEraseBusy 4 [] with schedule := [.request (encodeRequest (.acc 0xF8000000 false 0))] }

theorem witness_FlashStaysSound : busyAsked.flashOk ∧ ∃ t, step busyAsked = .next t := by
  refine ⟨⟨by decide +kernel, ?_⟩, has_next (f := fun t => t.ret) (by decide +kernel)⟩
  show ∀ x ∈ ([⟨.blockEraseBusy, 4, []⟩, ⟨.read, 0, []⟩] : List FlashBank), FlashBank.ok Config.tc x
  intro x hx
  fin_cases hx <;> refine ⟨by decide, by decide, ?_, ?_, ?_⟩ <;> decide +kernel

theorem witness_ShapesStay : (asked (.host .compose)).shapeOk ∧ ∃ t, step (asked (.host .compose)) = .next t := by
  refine ⟨?_, has_next (f := fun t => t.calls.length) (by decide +kernel)⟩
  and_intros
  all_goals first
    | decide +kernel
    | exact fun h => absurd rfl h
    | exact fun p hp => nomatch (show (none : Option (List (List Byte))) = some p from hp)

/-- A command outstanding, a transfer pending, a trigger owed. -/
def busyControllers : State :=
  { asked (.host .halt) with
    sd := { State.reset.sd with outstanding := some ⟨25, .write, true⟩, status := 0x8003 }
    cf := { State.reset.cf with pendingDma := some ⟨.read, 0, 2, 2⟩ }
    agents := ⟨false, [⟨0x7F, 0⟩], .cf⟩ }

theorem witness_ControllersStaySound :
    busyControllers.sdOk ∧ busyControllers.cfOk ∧ busyControllers.queueOk ∧ ∃ t, step busyControllers = .next t := by
  refine ⟨⟨fun o ho => ?_, by decide +kernel⟩, fun p hp => ?_, ⟨by decide +kernel, fun q hq => ?_⟩,
    has_next (f := fun t => t.agents) (by decide +kernel)⟩
  · cases ho
    decide +kernel
  · cases hp
    decide +kernel
  · have hq : q ∈ [(⟨0x7F, 0⟩ : TriggerCall)] := hq
    obtain rfl := List.mem_singleton.mp hq
    decide +kernel

/-- `TC` is accepted, with the `ws` and the `share` that the statement defines; a configuration with no EDMAC channel is
not. -/
theorem witness_InitIsSound :
    State.initOf Config.tc = some (State.init Config.tc) ∧ State.initOf { Config.tc with edmac := [] } = none ∧
    ∃ (ws : List (Nat × Nat)) (share : Nat × Nat → Nat × Nat → Prop),
      ws = Config.tc.windows.map (fun x => (x.first, x.size)) ∧ ws.length = 8 ∧
      ∀ x y, share x y ↔ ∃ a, x.1 ≤ a ∧ a < x.1 + x.2 ∧ y.1 ≤ a ∧ a < y.1 + y.2 := by
  refine ⟨?_, ?_, _, fun x y => ∃ a, x.1 ≤ a ∧ a < x.1 + x.2 ∧ y.1 ≤ a ∧ a < y.1 + y.2, rfl, rfl, fun x y => Iff.rfl⟩
  · show (if Config.tc.wf then _ else _) = _
    rw [if_pos test_tc_wf]
  · have h : ({ Config.tc with edmac := [] } : Cfg).wf = false := by decide +kernel
    show (if ({ Config.tc with edmac := [] } : Cfg).wf then _ else _) = _
    rw [h]
    rfl

theorem witness_OneLockGroupPerStep : ∃ t, step (asked (.tick .run)) = .next t :=
  has_next (f := fun t => t.clock) (by decide +kernel)

/-- A step from a line in service, and a step that delivers one. -/
theorem witness_OneDeliveryUntilAcknowledge :
    (ackAsked.ic.active = some ⟨127, List.replicate 128 false⟩ ∧ ∃ t, step ackAsked = .next t) ∧
    ∃ s : State, s.ic.active = none ∧ ∃ t, step s = .next t ∧ service t = (some 127, true) :=
  ⟨⟨rfl, has_next (f := service) (by decide +kernel)⟩,
    { withLines [(127, ⟨true, 0⟩)] with schedule := [.request (encodeRequest (.trig 127 0))] }, rfl,
    next_of_after (by decide +kernel)⟩

/-- Each of the three fatal causes. -/
theorem witness_FatalCauses :
    Config.tc.wf = true ∧ State.reset.cfg = Config.tc ∧ State.reset.queueOk ∧
    (∃ t, step (asked (.acc 0xC0F04140 true 1)) = .next t ∧ t.fatal = some (.edmacNoIrq 5)) ∧
    (∃ t, step (asked (.acc 0xC060020C true 0x39)) = .next t ∧ t.fatal = some .cfDmaNotEnabled) ∧
    (∃ t, step (asked (.trig 0x80 0)) = .next t ∧ t.fatal = some (.irqIdOutOfRange 0x80)) :=
  ⟨test_tc_wf, rfl, ⟨by decide +kernel, fun q hq => absurd hq (by simp [State.reset, State.init])⟩,
    next_of_after (by decide +kernel), next_of_after (by decide +kernel), next_of_after (by decide +kernel)⟩

/-- A trigger step still runs while the CPU is halted. -/
theorem witness_HaltStopsTime :
    ∃ s t : State, s.agents.cpuHalted = true ∧ step s = .next t ∧ (lineAt t 5).sched ≠ (lineAt s 5).sched ∧
      t.fatal = none := by
  obtain ⟨t, ht, hx⟩ := next_of_after (r := step { State.reset with agents := ⟨true, [⟨5, 3⟩], .timers⟩ })
    (f := fun t => ((lineAt t 5).sched, t.fatal)) (x := (3, none)) (by decide +kernel)
  obtain ⟨h3, hf⟩ := Prod.mk.inj hx
  exact ⟨_, t, rfl, ht, by rw [h3]; decide +kernel, hf⟩

/-- An operation that stores nowhere, one on a bank, and a tick in its TIMERS phase. -/
theorem witness_OnlyTransfersStore :
    (∃ t, exec .tick State.reset = .next t) ∧ State.reset.agents.tickPhase = .timers ∧
    Instr.flashAccess .tick = none ∧
    (∃ t, exec (.flPassW 1 0x1FFF 9) State.reset = .next t) ∧
    Instr.flashAccess (.flPassW 1 0x1FFF 9) = some (1, 0x1FFF, true, 9) :=
  ⟨has_next (f := fun t => t.clock) (by decide +kernel), rfl, rfl,
    has_next (f := fun t => t.ret) (by decide +kernel), rfl⟩

/-- Transfers that wrap round the end of the address space, and the first byte after them. -/
theorem witness_TransfersStoreInTheirRange :
    copyAsked.mem.wf = true ∧
    ((∃ t, exec (.dmaStart 0 1) copyAsked = .next t) ∧
      ∀ k < (dmaAt copyAsked 0).count.toNat, ((dmaAt copyAsked 0).dst.toNat + k) % 2 ^ 32 ≠ 2 % 2 ^ 32) ∧
    (∃ s : State, (∃ t, exec (.sdIssue 1) s = .next t) ∧
      (∀ k < 4 * (s.sd.dmaCount.toNat / 4), (s.sd.dmaAddr.toNat + k) % 2 ^ 32 ≠ 0x80008 % 2 ^ 32) ∧
      s.mem.wf = true) ∧
    (∃ (s : State) (p : CfDma), s.cf.pendingDma = some p ∧ (∃ t, exec .cfDmaSlice s = .next t) ∧
      (∀ k < 4 * p.words.toNat, 4 * p.done.toNat ≤ k → (p.addr.toNat + k) % 2 ^ 32 ≠ 0x90003 % 2 ^ 32) ∧
      s.mem.wf = true) :=
  ⟨by decide +kernel, ⟨has_next (f := fun t => t.mem) (by decide +kernel), by decide +kernel⟩,
    ⟨sdAsked 0x5100 true true [.resp4 ⟨#[0, 0, 9, 0], rfl⟩], has_next (f := fun t => t.sd) (by decide +kernel),
      by decide +kernel⟩,
    ⟨cfPending ⟨.read, 0x90000, 4, 1⟩ [true, true] [1, 2, 3, 4, 5, 6, 7, 8], ⟨.read, 0x90000, 4, 1⟩, rfl,
      has_next (f := fun t => t.mem) (by decide +kernel), by decide +kernel⟩⟩

theorem witness_DispatcherAccesses : ∃ (s : State) (c : Word), modelConstAt s.cfg 0xC0400008 = some c :=
  ⟨State.reset, 0x12, by decide +kernel⟩

/-- The greatest line delivered, scheduled for each of the three reasons, and the first id beyond the lines. -/
theorem witness_Trigger :
    (∃ s : State, (127 : Word).toNat < s.cfg.maxIrq ∧ (lineAt s (127 : Word).toNat).enabled = true ∧ s.ic.active = none) ∧
    (∃ s : State, (127 : Word).toNat < s.cfg.maxIrq ∧ (lineAt s (127 : Word).toNat).enabled = false) ∧
    (∃ s : State, (0 : Word).toNat < s.cfg.maxIrq ∧ s.ic.active ≠ none) ∧
    State.reset.cfg.maxIrq ≤ (128 : Word).toNat :=
  ⟨⟨withLines [(127, ⟨true, 0⟩)], by decide +kernel⟩, ⟨State.reset, by decide +kernel⟩, ⟨ackAsked, by decide +kernel⟩,
    by decide +kernel⟩

/-- The greatest line, the first id beyond, the line in service named and not named. -/
theorem witness_EnableAndDisable :
    (127 : Word).toNat < State.reset.cfg.maxIrq ∧ State.reset.cfg.maxIrq ≤ (128 : Word).toNat ∧
    (∃ x, ackAsked.ic.active = some x ∧ 32 * 3 ≤ x.id ∧ x.id < 32 * 3 + 32 ∧
      (0x80000000 : Word).getLsbD (x.id - 32 * 3) = true ∧ x.id < ackAsked.cfg.maxIrq) ∧
    (∀ x, ackAsked.ic.active = some x →
      ¬ (32 * 3 ≤ x.id ∧ x.id < 32 * 3 + 32 ∧ (0x7FFFFFFF : Word).getLsbD (x.id - 32 * 3) = true ∧
        x.id < ackAsked.cfg.maxIrq)) := by
  refine ⟨by decide +kernel, by decide +kernel, ⟨⟨127, List.replicate 128 false⟩, rfl, by decide +kernel⟩, ?_⟩
  intro x hx
  cases hx
  decide +kernel

/-- Four lines, the OS timer's line 1. -/
def fourLines (ls : List Line) : State :=
  { State.reset with cfg := { Config.tc with maxIrq := 4, osTimerIrq := 1 }, ic := ⟨ls, none, false⟩ }

/-- A line beyond the four is not enabled and not scheduled. -/
theorem fourLines_beyond (a b c d : Line) (j : Nat) : lineAt (fourLines [a, b, c, d]) (j + 4) = ⟨false, 0⟩ := by
  simp [lineAt, fourLines]

/-- A walk with a line in service, and one with no line ready (one disabled at 1, one enabled at 2). -/
theorem witness_TickWalkCountsDown :
    (ackAsked.agents.cpuHalted = false ∧ ackAsked.fatal = none ∧ ackAsked.ic.line.length = ackAsked.cfg.maxIrq ∧
      ackAsked.ic.active ≠ none) ∧
    ∃ s : State, s.agents.cpuHalted = false ∧ s.fatal = none ∧ s.ic.line.length = s.cfg.maxIrq ∧ s.ic.active = none ∧
      ∀ j, ¬ ((lineAt s j).enabled = true ∧ (lineAt s j).sched = 1) := by
  refine ⟨by decide +kernel, fourLines [⟨false, 1⟩, ⟨true, 2⟩, ⟨true, 0⟩, ⟨false, 0⟩], rfl, rfl, rfl, rfl, ?_⟩
  intro j
  match j with
  | 0 => decide +kernel
  | 1 => decide +kernel
  | 2 => decide +kernel
  | 3 => decide +kernel
  | n + 4 => simp [fourLines_beyond]

/-- Ready: the highest line, a lower one and the OS timer's; then the OS timer's alone. -/
theorem witness_TickWalkDelivers :
    ∀ p ∈ ([(fourLines [⟨true, 1⟩, ⟨true, 1⟩, ⟨true, 2⟩, ⟨true, 1⟩], 3),
        (fourLines [⟨false, 1⟩, ⟨true, 1⟩, ⟨true, 2⟩, ⟨true, 0⟩], 1)] : List (State × Nat)),
      p.1.agents.cpuHalted = false ∧ p.1.fatal = none ∧ p.1.ic.line.length = p.1.cfg.maxIrq ∧ p.1.ic.active = none ∧
      (lineAt p.1 p.2).enabled = true ∧ (lineAt p.1 p.2).sched = 1 ∧
      ∀ j, (lineAt p.1 j).enabled = true → (lineAt p.1 j).sched = 1 → j ≠ p.2 →
        j = p.1.cfg.osTimerIrq.toNat ∨ (j < p.2 ∧ p.2 ≠ p.1.cfg.osTimerIrq.toNat) := by
  intro p hp
  fin_cases hp <;> refine ⟨rfl, rfl, rfl, rfl, by decide +kernel, by decide +kernel, ?_⟩ <;> intro j <;>
    match j with
    | 0 => decide +kernel
    | 1 => decide +kernel
    | 2 => decide +kernel
    | 3 => decide +kernel
    | n + 4 => simp [fourLines_beyond]

/-- A countdown of 3, another enabled line idle and another pending line disabled. -/
theorem witness_CountdownIsExact :
    ∃ (s : State) (id d : Nat), s.ic.line.length = s.cfg.maxIrq ∧ s.ic.active = none ∧ 0 < d ∧
      (lineAt s id).enabled = true ∧ (lineAt s id).sched.toNat = d ∧
      ∀ j, j ≠ id → (lineAt s j).enabled = false ∨ (lineAt s j).sched = 0 := by
  refine ⟨fourLines [⟨false, 1⟩, ⟨true, 0⟩, ⟨true, 3⟩, ⟨false, 0⟩], 2, 3, rfl, rfl, by decide, by decide +kernel,
    by decide +kernel, ?_⟩
  intro j
  match j with
  | 0 => decide +kernel
  | 1 => decide +kernel
  | 2 => decide +kernel
  | 3 => decide +kernel
  | n + 4 => simp [fourLines_beyond]

/-- The last channel, and the OS channel. -/
theorem witness_TimerStartStop :
    3 < State.reset.tmr.length ∧ (3 : Nat) ≠ State.reset.cfg.osTimerCh ∧ 2 = State.reset.cfg.osTimerCh ∧
      (1 : Word).getLsbD 0 = true ∧ (0xFFFFFFFE : Word).getLsbD 0 = false := by decide +kernel

theorem witness_TimersAdvance :
    State.reset.agents.cpuHalted = false ∧ State.reset.fatal = none ∧ State.reset.cfg.timersOk = true ∧
      3 < State.reset.tmr.length := by decide +kernel

theorem witness_HpTimerLatches :
    ∃ s : State, s.agents.cpuHalted = false ∧ s.fatal = none ∧ (hptAt s 3).active = true ∧ (hptAt s 3).ocv = s.clock ∧
      3 < s.hpt.length ∧ (8 : Word).getLsbD 3 = true :=
  ⟨{ hpt3 ⟨true, 0x300, false⟩ with clock := 0x300 }, by decide +kernel⟩

/-- Ranges that do not overlap, across the end of the address space; overlapping ranges in one block; overlapping ranges
of two blocks. There is memory behind every source. -/
theorem witness_DmaStartCopies :
    (copyAsked.mem.wf = true ∧ 1 ≤ copyAsked.cfg.dmaBlock ∧
      copyAsked.cfg.dmaIrq[1]? = some 0x74 ∧ (1 : Word).getLsbD 0 = true ∧ (2 : Word).getLsbD 0 = false) ∧
    (∃ s : State, 0 < (dmaAt s 0).count.toNat ∧ s.mem.wf = true ∧
      (∀ i < (dmaAt s 0).count.toNat, ∀ j < (dmaAt s 0).count.toNat,
        ((dmaAt s 0).src.toNat + i) % 2 ^ 32 ≠ ((dmaAt s 0).dst.toNat + j) % 2 ^ 32) ∧
      ∀ i < (dmaAt s 0).count.toNat, s.mem.backed ((dmaAt s 0).src.toNat + i) = true) ∧
    ((dmaAt (dma0 ⟨0, 1, 0x20⟩ []) 0).count.toNat ≤ (dma0 ⟨0, 1, 0x20⟩ []).cfg.dmaBlock ∧
      ∀ i < 0x20, (dma0 ⟨0, 1, 0x20⟩ []).mem.backed i = true) ∧
    (1 * (dma0 ⟨0, 1, 0x21⟩ []).cfg.dmaBlock < (dmaAt (dma0 ⟨0, 1, 0x21⟩ []) 0).count.toNat ∧
      (dma0 ⟨0, 1, 0x21⟩ []).mem.wf = true) :=
  ⟨by decide +kernel, ⟨dma0 ⟨2, 0xFFFFFFFE, 4⟩ [(3, 9)], by decide +kernel⟩, by decide +kernel, by decide +kernel⟩

theorem witness_EdmacRegisters : 23 < State.reset.edmac.length := by decide +kernel

/-- A start with bit 0 clear, a channel with no entry, a write channel and a read channel with one. -/
theorem witness_EdmacStart :
    (2 : Word).getLsbD 0 = false ∧ (1 : Word).getLsbD 0 = true ∧ edmacIrq State.reset.cfg 23 = none ∧
      State.reset.cfg.edmac[0]? = some ⟨true, some 0x5D⟩ ∧ State.reset.cfg.edmac[8]? = some ⟨false, some 0x5F⟩ := by
  decide +kernel

/-- Each sub-range's first slot with an entry, a place that is no slot, a slot with no entry. -/
theorem witness_ChannelSwitchWrites :
    (Config.tc.chsw .r0).map[8 / 4]? = some (some 8) ∧ (Config.tc.chsw .r1).map[0 / 4]? = some (some 22) ∧
      (Config.tc.chsw .w0).map[12 / 4]? = some (some 7) ∧ (Config.tc.chsw .w1).map[0 / 4]? = some (some 0) ∧
      (31 : Word).toNat < 32 ∧ 32 ≤ (32 : Word).toNat ∧ 2 % 4 ≠ 0 ∧
      ∀ ch, (Config.tc.chsw .r0).map[4 / 4]? ≠ some (some ch) := by
  have h : (Config.tc.chsw .r0).map[4 / 4]? = some none := by decide +kernel
  refine ⟨by decide +kernel, by decide +kernel, by decide +kernel, by decide +kernel, by decide, by decide, by decide, ?_⟩
  intro ch
  simp [h]

/-- A failing command, a command with no data phase, a data command with DMA not enabled; a script that is empty. -/
theorem witness_SdioIssue :
    (1 : Word).getLsbD 0 = true ∧ (2 : Word).getLsbD 0 = false ∧
    (sdAsked 0x5100 true true [.fail]).env.sdResponses = .fail :: [] ∧
    (∃ s : State, s.env.sdResponses = .resp4 ⟨#[0, 0, 9, 0], rfl⟩ :: [] ∧
      s.sd.cmdHi.extractLsb' 8 6 ∉ [(17 : BitVec 6), 18, 24, 25]) ∧
    (∃ s : State, s.env.sdResponses = .resp4 ⟨#[0, 0, 9, 0], rfl⟩ :: [] ∧
      s.sd.cmdHi.extractLsb' 8 6 ∈ [(18 : BitVec 6), 25] ∧ s.sd.dmaEnabled = false) ∧
    SdResponse.resp4 ⟨#[0, 0, 9, 0], rfl⟩ ≠ .fail ∧ (sdAsked 0x5100 true true []).env.sdResponses = [] :=
  ⟨by decide, by decide, rfl, ⟨sdAsked 0x4000 true true [.resp4 ⟨#[0, 0, 9, 0], rfl⟩], rfl, by decide⟩,
    ⟨sdAsked 0x5200 true false [.resp4 ⟨#[0, 0, 9, 0], rfl⟩], rfl, by decide, rfl⟩, by simp, rfl⟩

/-- A read of 8 bytes with DMA enabled, and a write. -/
theorem witness_SdioIssueWithData :
    (∃ s : State, s.env.sdResponses = .resp4 ⟨#[0, 0, 9, 0], rfl⟩ :: [] ∧ s.sd.dmaEnabled = true ∧
      s.sd.cmdHi.extractLsb' 8 6 ∈ [(17 : BitVec 6), 18] ∧ 4 * (s.sd.dmaCount.toNat / 4) = 8 ∧
      s.env.sdBytes = [1, 2, 3, 4, 5, 6, 7, 8] ++ [9] ∧ s.mem.wf = true) ∧
    ∃ s : State, s.env.sdResponses = .resp4 ⟨#[0, 0, 9, 0], rfl⟩ :: [] ∧ s.sd.dmaEnabled = true ∧
      s.sd.cmdHi.extractLsb' 8 6 ∈ [(24 : BitVec 6), 25] :=
  ⟨⟨sdAsked 0x5100 true true [.resp4 ⟨#[0, 0, 9, 0], rfl⟩], rfl, rfl, by decide, by decide +kernel, rfl, rfl⟩,
    ⟨sdAsked 0x5800 true true [.resp4 ⟨#[0, 0, 9, 0], rfl⟩], rfl, rfl, by decide⟩⟩

/-- Nothing outstanding; a read outstanding with its bytes; a write outstanding. -/
theorem witness_SdioDmaControl :
    (sdAsked 0 true false []).sd.outstanding = none ∧
    (∃ s : State, s.sd.outstanding = some ⟨18, .read, true⟩ ∧ 4 * (s.sd.dmaCount.toNat / 4) = 8 ∧
      s.env.sdBytes = [1, 2, 3, 4, 5, 6, 7, 8] ++ [9] ∧ s.mem.wf = true) ∧
    (∃ s : State, s.sd.outstanding = some ⟨24, .write, false⟩) ∧ (1 : Word).getLsbD 0 = true :=
  ⟨rfl,
    ⟨{ sdAsked 0 true false [] with sd := { (sdAsked 0 true false []).sd with outstanding := some ⟨18, .read, true⟩ } },
      rfl, by decide +kernel, rfl, rfl⟩,
    ⟨{ sdAsked 0 true false [] with sd := { (sdAsked 0 true false []).sd with outstanding := some ⟨24, .write, false⟩ } },
      rfl⟩, by decide⟩

theorem witness_CfAtaAccesses :
    ∃ s : State, s.env.ideValues = 0x50 :: [] ∧ s.env.ideDone = true :: [] ∧ s.env.ataIrqEnabled = true :: [] :=
  ⟨ideScript true true, rfl, rfl, rfl⟩

/-- Both commands, and a value that is neither. -/
theorem witness_CfDmaRequest :
    State.reset.cfg.cfDmaWriteCmd ≠ 0x39 ∧ State.reset.cfg.cfDmaWriteCmd = 0xCA ∧ State.reset.cf.dmaEnabled = false ∧
      (cfPending ⟨.read, 0, 1, 0⟩ [] []).cf.dmaEnabled = true ∧ (0x12 : Word) ≠ 0x39 ∧
      (0x12 : Word) ≠ State.reset.cfg.cfDmaWriteCmd := by decide +kernel

/-- Nothing pending; a backend not ready; a slice of the last word of a read; a read whose backend stops after one word of
two; a whole slice of a write; a write whose backend is ready for none. -/
theorem witness_CfSlice :
    (State.reset.agents.cpuHalted = false ∧ State.reset.fatal = none ∧ 1 ≤ State.reset.cfg.cfSliceWords ∧
      State.reset.cf.pendingDma = none) ∧
    ((cfPending ⟨.read, 0x90000, 4, 3⟩ [false] []).cf.pendingDma = some ⟨.read, 0x90000, 4, 3⟩ ∧ (3 : Word) < 4 ∧
      (cfPending ⟨.read, 0x90000, 4, 3⟩ [false] []).env.cfReady = false :: []) ∧
    (∀ q ∈ ([(⟨.read, 0x90000, 4, 3⟩, [true], 1, [1, 2, 3, 4], []),
        (⟨.read, 0x90000, 4, 0⟩, [true, false, true], 1, [1, 2, 3, 4], [true])] :
          List (CfDma × List Bool × Nat × List Byte × List Bool)),
      ∃ s : State, s = cfPending q.1 q.2.1 q.2.2.2.1 ∧ s.cf.pendingDma = some q.1 ∧ q.1.dir = .read ∧ q.1.done ≤ q.1.words ∧
        q.2.2.1 ≤ min s.cfg.cfSliceWords (q.1.words.toNat - q.1.done.toNat) ∧
        s.env.cfReady = List.replicate q.2.2.1 true ++
          (if q.2.2.1 < min s.cfg.cfSliceWords (q.1.words.toNat - q.1.done.toNat) then false :: q.2.2.2.2 else q.2.2.2.2) ∧
        s.env.cfBytes = q.2.2.2.1 ++ [] ∧ q.2.2.2.1.length = 4 * q.2.2.1 ∧ 4 * q.2.2.1 ≤ 2 ^ 32 ∧ s.mem.wf = true) ∧
    ∀ q ∈ ([(⟨.write, 0x90000, 4, 0⟩, [true, true, true], 2, [true]), (⟨.write, 0x90000, 4, 0⟩, [false], 0, [])] :
        List (CfDma × List Bool × Nat × List Bool)),
      ∃ s : State, s = cfPending q.1 q.2.1 [] ∧ s.cf.pendingDma = some q.1 ∧ q.1.dir = .write ∧ q.1.done ≤ q.1.words ∧
        q.2.2.1 ≤ min s.cfg.cfSliceWords (q.1.words.toNat - q.1.done.toNat) ∧
        s.env.cfReady = List.replicate q.2.2.1 true ++
          (if q.2.2.1 < min s.cfg.cfSliceWords (q.1.words.toNat - q.1.done.toNat) then false :: q.2.2.2 else q.2.2.2) := by
  refine ⟨by decide +kernel, by decide +kernel, fun q hq => ⟨_, rfl, ?_⟩, fun q hq => ⟨_, rfl, ?_⟩⟩ <;>
    fin_cases hq <;> decide +kernel

/-- A transfer of three words, two a slice: two slices. -/
theorem witness_CfTransferCompletes :
    ∃ (s : State) (p : CfDma) (n : Nat), 1 ≤ s.cfg.cfSliceWords ∧ s.cf.pendingDma = some p ∧ p.dir = .read ∧ p.done = 0 ∧
      s.env.cfReady = List.replicate p.words.toNat true ∧ s.env.cfBytes.length = 4 * p.words.toNat ∧
      4 * p.words.toNat ≤ 2 ^ 32 ∧ s.mem.wf = true ∧
      n = max 1 ((p.words.toNat + s.cfg.cfSliceWords - 1) / s.cfg.cfSliceWords) ∧ n = 2 :=
  ⟨cfPending ⟨.read, 0xFFFFFFFC, 3, 0⟩ [true, true, true] [1, 2, 3, 4, 5, 6, 7, 8, 9, 10, 11, 12],
    ⟨.read, 0xFFFFFFFC, 3, 0⟩, 2, by decide +kernel⟩

/-- The conditions `FlashCommandCycles` and `FlashBadCycle` put on `lit` and `go` are met by defining them so. -/
theorem witness_FlashCommandCycles :
    Config.tc.flashSmEnabled = true ∧
    (∀ p ∈ ([(0xAAA, 0xAA, 0x555, 0xAA), (0x555 + 0x555, 0xFFFF00A0, 0x555, 0xA0), (0x555 * 2 + 1, 0x80, 0x555, 0x80),
        (0x554, 0x55, 0x2AA, 0x55)] : List (Nat × Word × Nat × Half)),
      BitVec.ofNat 32 (p.1 / 2) &&& Config.tc.flashCmdMask = BitVec.ofNat 32 p.2.2.1 ∧
        p.2.1.setWidth 16 = p.2.2.2) ∧
    ∀ st, (bankAt (bank0 st 0 []) 0).state = st := by
  refine ⟨rfl, by decide +kernel, ?_⟩
  intro st
  rfl

/-- The banks of `bank0` are canonical when bank 0 is. -/
theorem bank0_memOk (st : FlashState) (busy : BitVec 8) (m : Memory)
    (h : Memory.wf (some Config.erasedByte) 0x2000 m = true) : (bank0 st busy m).memOk := by
  refine ⟨rfl, fun b => ?_⟩
  match b with
  | 0 => exact h
  | 1 => rfl
  | n + 2 => rfl

theorem witness_FlashErases :
    (bank0 .erase3 0 words100).memOk ∧ 0 < (bank0 .erase3 0 words100).flash.length ∧ Config.tc.flashSmEnabled = true ∧
    (bankAt (bank0 .erase3 0 words100) 0).state = .erase3 ∧
    (bankAt (bank0 .unlockBypassErase 0 words100) 0).state = .unlockBypassErase ∧
    BitVec.ofNat 32 (0xAAA / 2) &&& Config.tc.flashCmdMask = 0x555 ∧ (0x10 : Word).setWidth 16 = (0x10 : Half) ∧
    (0x30 : Word).setWidth 16 = (0x30 : Half) :=
  ⟨bank0_memOk _ _ _ (by decide +kernel), by decide, rfl, rfl, rfl, by decide, by decide, by decide⟩

/-- The last word of a bank in PROGRAM, and the last byte with the state machine disabled. -/
theorem witness_FlashStores :
    (bank0 .program 0 words100).memOk ∧ 0 < (bank0 .program 0 words100).flash.length ∧
    Config.tc.flashSmEnabled = true ∧ 2 * (0x1FFE / 2) + 1 < (bank0 .program 0 words100).cfg.bankSize 0 ∧
    (bankAt (bank0 .program 0 words100) 0).state = .program ∧
    ∃ s : State, s.cfg.flashSmEnabled = false ∧ s.memOk ∧ 0x1FFF < s.cfg.bankSize 0 ∧ 0 < s.flash.length :=
  ⟨bank0_memOk _ _ _ (by decide +kernel), by decide, rfl, by decide, rfl,
    { bank0 .read 0 words100 with cfg := { Config.tc with flashSmEnabled := false } }, rfl,
    bank0_memOk .read 0 words100 (by decide +kernel), by decide, by decide⟩

/-- An unexpected cycle in each state that expects one: the wrong offset, or the wrong value. -/
theorem witness_FlashBadCycle :
    ∀ st : FlashState, st ≠ .program →
      ∃ (off : Nat) (v : Word), ∀ lit : Nat → Half → Prop,
        (∀ l x, lit l x ↔ BitVec.ofNat 32 (off / 2) &&& Config.tc.flashCmdMask = BitVec.ofNat 32 l ∧ v.setWidth 16 = x) →
        match st with
        | .read => ¬ lit 0x555 0xAA ∧ v.setWidth 16 ≠ (0x80 : Half) ∧ v.setWidth 16 ≠ (0xA0 : Half)
        | .unlock2 => ¬ lit 0x2AA 0x55
        | .unlocked => ¬ lit 0x555 0xA0 ∧ ¬ lit 0x555 0x80
        | .erase1 => ¬ lit 0x555 0xAA
        | .erase2 => ¬ lit 0x2AA 0x55
        | .erase3 => ¬ lit 0x555 0x10 ∧ v.setWidth 16 ≠ (0x30 : Half)
        | .unlockBypassErase => v.setWidth 16 ≠ (0x10 : Half) ∧ v.setWidth 16 ≠ (0x30 : Half)
        | .program => False
        | .unlockBypass => True
        | .unlockBypassReset => True
        | .blockEraseBusy => True := by
  intro st hst
  refine ⟨0x200, 0xFF, fun lit hlit => ?_⟩
  cases st <;> simp [hlit]
  all_goals first | decide | exact absurd rfl hst

/-- A read at the last byte; the first and the last busy read. -/
theorem witness_FlashReads :
    0 < (bank0 .blockEraseBusy 3 []).flash.length ∧ (bankAt (bank0 .unlock2 0 []) 0).state ≠ .blockEraseBusy ∧
    (bankAt (bank0 .blockEraseBusy 3 []) 0).busyReads.toNat < Config.tc.flashBusyReads ∧
    Config.tc.flashBusyReads ≤ (bankAt (bank0 .blockEraseBusy 4 []) 0).busyReads.toNat := by decide +kernel

/-- A configuration with one bank, at the top of the address space, and its handler. -/
def allFlash : Cfg :=
  { Config.tc with
    handlers := [⟨"FLASH0", 0xFFFFE000, 0xFFFFFFFF, .flash 0, 0⟩], banks := [⟨0xFFFFE000, 0x2000, words100⟩] }

/-- Every address of the bank selects that handler. -/
theorem allFlash_selects (off : Nat) (hoff : off < 0x2000) :
    selectHandler allFlash (0xFFFFE000 + BitVec.ofNat 32 off) =
      some ⟨"FLASH0", 0xFFFFE000, 0xFFFFFFFF, .flash 0, 0⟩ := by
  have h : inRange 0xFFFFE000 0xFFFFFFFF (0xFFFFE000 + BitVec.ofNat 32 off) = true := by
    simp only [inRange, Bool.and_eq_true, decide_eq_true_eq]
    constructor <;> bv_omega
  exact List.find?_cons_of_pos h

/-- A bank at the top of the address space, and its last word. -/
theorem witness_FlashProgramRoundTrip :
    ∃ (s : State) (w : Nat) (place : Nat → Word), s.cfg.wf = true ∧ s.cfg.flashSmEnabled = true ∧
      0x555 &&& s.cfg.flashCmdMask = 0x555 ∧ 0x2AA &&& s.cfg.flashCmdMask = 0x2AA ∧ s.memOk ∧ 0 < s.flash.length ∧
      s.flash.length = s.cfg.nBanks ∧ (bankAt s 0).state = .read ∧ 0xAAB < s.cfg.bankSize 0 ∧
      2 * w + 1 < s.cfg.bankSize 0 ∧ (∀ k, place k = s.cfg.bankBase 0 + BitVec.ofNat 32 (2 * k)) ∧
      (∀ off < s.cfg.bankSize 0, ∃ h, selectHandler s.cfg (s.cfg.bankBase 0 + BitVec.ofNat 32 off) = some h ∧
        h.kind = .flash 0) := by
  refine ⟨State.init allFlash, 0xFFF, fun k => 0xFFFFE000 + BitVec.ofNat 32 (2 * k), by decide +kernel, rfl, by decide,
    by decide, ⟨rfl, fun b => ?_⟩, by decide, rfl, rfl, by decide, by decide, fun _ => rfl,
    fun off hoff => ⟨_, allFlash_selects off hoff, rfl⟩⟩
  match b with
  | 0 => decide +kernel
  | n + 1 => rfl

theorem witness_FlashChipEraseSequence :
    ∃ (s : State) (place : Nat → Word), s.cfg.wf = true ∧ s.cfg.flashSmEnabled = true ∧
      0x555 &&& s.cfg.flashCmdMask = 0x555 ∧ 0x2AA &&& s.cfg.flashCmdMask = 0x2AA ∧ s.memOk ∧ 0 < s.flash.length ∧
      s.flash.length = s.cfg.nBanks ∧ (bankAt s 0).state = .read ∧ 0xAAB < s.cfg.bankSize 0 ∧
      (∀ k, place k = s.cfg.bankBase 0 + BitVec.ofNat 32 (2 * k)) ∧
      (∀ off < s.cfg.bankSize 0, ∃ h, selectHandler s.cfg (s.cfg.bankBase 0 + BitVec.ofNat 32 off) = some h ∧
        h.kind = .flash 0) := by
  obtain ⟨s, w, place, h1, h2, h3, h4, h5, h6, h7, h8, h9, -, h10, h11⟩ := witness_FlashProgramRoundTrip
  exact ⟨s, place, h1, h2, h3, h4, h5, h6, h7, h8, h9, h10, h11⟩

/-- The palettes' last entries. -/
theorem witness_DisplayAndHost :
    State.reset.disp.pal4[15]? = some ⟨0, 0, 0, 0⟩ ∧ State.reset.disp.pal8[255]? = some ⟨0, 0, 0, 0⟩ := by decide +kernel

/-- The planes of `planes` after a composite of them. -/
def composed : State :=
  { planes with
    surface := List.replicate 4 (List.replicate 4 0)
    disp := { planes.disp with seenBmp := some (bmpRows planes), seenYuv := yuvRows planes, invalidateAll := false } }

/-- Nothing dirty; rows 1 to 3 dirty, by a changed bitmap row and a changed YUV row; the first composite. -/
theorem witness_Compose :
    ((∀ y < composed.cfg.bmpH, rowDirty composed (bmpRows composed) (yuvRows composed) y = false) ∧
      composed.disp.seenBmp ≠ none) ∧
    (∃ s : State, s.disp.seenBmp ≠ none ∧ 3 < s.cfg.bmpH ∧ rowDirty s (bmpRows s) (yuvRows s) 1 = true ∧
      rowDirty s (bmpRows s) (yuvRows s) 3 = true ∧
      ∀ y < s.cfg.bmpH, rowDirty s (bmpRows s) (yuvRows s) y = true → 1 ≤ y ∧ y ≤ 3) ∧
    (planes.disp.seenBmp = none ∧ 3 < planes.cfg.bmpH ∧ rowDirty planes (bmpRows planes) (yuvRows planes) 0 = true ∧
      rowDirty planes (bmpRows planes) (yuvRows planes) 3 = true ∧
      ∀ y < planes.cfg.bmpH, rowDirty planes (bmpRows planes) (yuvRows planes) y = true → 0 ≤ y ∧ y ≤ 3) :=
  ⟨by decide +kernel,
    ⟨{ composed with mem := guestWrite (guestWrite composed.mem 0x100006 [0]) 0x110007 [51] }, by decide +kernel⟩,
    by decide +kernel⟩

/-- The planes of a gray frame. -/
def grayPlanes : State :=
  { planes with
    mem := guestWrite (guestWrite ⟨[], [], 0⟩ 0x100000 (List.replicate 16 0)) 0x110000 (List.replicate 8 0x80) }

/-- The first composite; one after an invalidate; one in which the YUV plane has just appeared. -/
theorem witness_GrayFrame :
    ∀ s ∈ ([grayPlanes,
        { grayPlanes with
          surface := List.replicate 4 [], disp := { grayPlanes.disp with seenBmp := some [], invalidateAll := true } },
        { grayPlanes with
          surface := List.replicate 4 []
          disp := { grayPlanes.disp with seenBmp := some (List.replicate 4 [0, 0, 0, 0]), invalidateAll := false } }] :
        List State),
      s.cfg.planesOk = true ∧ 0 < s.cfg.bmpW ∧ 0 < s.cfg.bmpH ∧ 0 < s.cfg.yuvW ∧ 0 < s.cfg.yuvH ∧
      s.disp.yuvAddr ≠ 0 ∧ (s.disp.seenBmp ≠ none → s.surface.length = s.cfg.bmpH) ∧
      (s.disp.invalidateAll = true ∨ s.disp.seenBmp = none ∨
        (rowDirty s (bmpRows s) (yuvRows s) 0 = true ∧
          rowDirty s (bmpRows s) (yuvRows s) (s.cfg.bmpH - 1) = true)) ∧
      (∀ y < s.cfg.bmpH, ∀ x < s.cfg.bmpW,
        guestAnswer (s.mem.after y) (s.disp.bmpAddr.toNat + y * s.cfg.bmpPitch + x) = 0) ∧
      (∀ y < s.cfg.yuvH, ∀ x < 2 * s.cfg.yuvW,
        guestAnswer (s.mem.after (s.cfg.bmpH + y)) (s.disp.yuvAddr.toNat + y * s.cfg.yuvPitch + x) = 0x80) := by
  decide +kernel

/-- The composed planes: a palette pixel and a converted pixel, rows of the record's shape. -/
theorem witness_RowsAndPixels :
    composed.shapeOk ∧ composed.cfg.planesOk = true ∧ 3 < composed.cfg.bmpH ∧
    guestAnswer (composed.mem.after 1) (composed.disp.bmpAddr.toNat + 1 * composed.cfg.bmpPitch + 2) = 1 ∧
    composed.disp.pal8[1]? = some ⟨0xFF, 0, 0, 0⟩ ∧
    guestAnswer (composed.mem.after 3) (composed.disp.bmpAddr.toNat + 3 * composed.cfg.bmpPitch + 3) = 0 ∧
    composed.disp.yuvAddr ≠ 0 ∧ 0 < composed.cfg.yuvW ∧ 0 < composed.cfg.yuvH ∧
    composed.cfg.yuvMatrix = .bt601 ∧ { planes with disp := { planes.disp with yuvAddr := 0 } }.disp.yuvAddr = 0 := by
  have bitmap : ∀ rows, composed.disp.seenBmp = some rows → planeShape composed.cfg.bmpH composed.cfg.bmpPitch rows := by
    intro rows seen
    cases seen
    constructor <;> decide +kernel
  have samples : ∀ rows, composed.disp.seenYuv = some rows → planeShape composed.cfg.yuvH composed.cfg.yuvPitch rows := by
    intro rows seen
    have present : yuvRows planes = some ((yuvRows planes).getD []) := by decide +kernel
    cases present.symm.trans (show yuvRows planes = some rows from seen)
    constructor <;> decide +kernel
  refine ⟨?_, by decide +kernel⟩
  and_intros
  all_goals first
    | exact bitmap
    | exact samples
    | decide +kernel

/-- A TIMERS step in which no channel matches, and one in which channel 3 matches; the other two phases. -/
theorem witness_TickerRun :
    (State.reset.agents.cpuHalted = false ∧ State.reset.fatal = none ∧
      State.reset.cfg.hptIrq.toNat < State.reset.cfg.maxIrq ∧ State.reset.cfg.cfDmaIrq.toNat < State.reset.cfg.maxIrq ∧
      State.reset.agents.tickPhase = .timers) ∧
    after (exec .tmrTick State.reset)
        (fun u => decide (∀ n < u.hpt.length, ¬ ((hptAt u n).active = true ∧ (hptAt u n).ocv = u.clock))) = some true ∧
    after (exec .tmrTick { hpt3 ⟨true, 0x300, false⟩ with clock := 0x200 })
        (fun u => decide (∃ n < u.hpt.length, (hptAt u n).active = true ∧ (hptAt u n).ocv = u.clock)) = some true ∧
    (cfPending ⟨.read, 0, 1, 0⟩ [] []).agents.tickPhase = .cf := by decide +kernel

end Sys2Proof.Tests
end

namespace Sys2Proof.Proofs

open Sys2Proof.Machine

/-! ## What an operation leaves unchanged -/

/-- The parts of the state that the invariants of 10_state.md speak of. `raises` is the number of `raise_irq()` calls,
`timing` the clock and the HPTimers, `transfer` the pending CF transfer, `queue` the owed triggers. -/
inductive Part where
  | cfg | ic | raises | timing | flash | sd | transfer | queue
  deriving DecidableEq

/-- The part is the same in both states. -/
def Part.Same : Part → State → State → Prop
  | .cfg, s, t => t.cfg = s.cfg
  | .ic, s, t => t.ic = s.ic
  | .raises, s, t => t.raises = s.raises
  | .timing, s, t => t.clock = s.clock ∧ t.hpt = s.hpt
  | .flash, s, t => t.flash = s.flash
  | .sd, s, t => t.sd = s.sd
  | .transfer, s, t => t.cf.pendingDma = s.cf.pendingDma
  | .queue, s, t => t.agents.cpuQueue = s.agents.cpuQueue

/-- Every part that is not of the list is the same in both states. -/
def SameBut (ps : List Part) (s t : State) : Prop := ∀ p, p ∉ ps → p.Same s t

theorem Part.Same.refl (p : Part) (s : State) : p.Same s s := by
  cases p <;> simp [Part.Same]

theorem Part.Same.trans {p : Part} {s t u : State} (h : p.Same s t) (k : p.Same t u) : p.Same s u := by
  cases p <;> simp_all [Part.Same]

theorem SameBut.refl (ps : List Part) (s : State) : SameBut ps s s := fun p _ => .refl p s

theorem SameBut.trans {ps : List Part} {s t u : State} (h : SameBut ps s t) (k : SameBut ps t u) : SameBut ps s u :=
  fun p hp => (h p hp).trans (k p hp)

theorem SameBut.mono {ps qs : List Part} {s t : State} (h : SameBut ps s t) (hsub : ps ⊆ qs) : SameBut qs s t :=
  fun p hp => h p (fun hq => hp (hsub hq))

/-- A loop over a list changes only what one round of it may change. -/
theorem SameBut.foldl {α : Type} {ps : List Part} {f : State → α → State} (h : ∀ s a, SameBut ps s (f s a))
    (l : List α) (s : State) : SameBut ps s (l.foldl f s) := by
  induction l generalizing s with
  | nil => exact .refl ps s
  | cons a l ih => exact (h s a).trans (ih (f s a))

/-- The two states agree in every part. -/
theorem sameBut_nil {s t : State} (cfg : t.cfg = s.cfg := by rfl) (ic : t.ic = s.ic := by rfl)
    (raises : t.raises = s.raises := by rfl) (clock : t.clock = s.clock := by rfl) (hpt : t.hpt = s.hpt := by rfl)
    (flash : t.flash = s.flash := by rfl) (sd : t.sd = s.sd := by rfl)
    (transfer : t.cf.pendingDma = s.cf.pendingDma := by rfl)
    (queue : t.agents.cpuQueue = s.agents.cpuQueue := by rfl) :
    SameBut [] s t := by
  intro p _
  cases p with
  | timing => exact ⟨clock, hpt⟩
  | _ => assumption

/-! ### Calls -/

theorem raises_emit (c : Call) (s : State) : (emit c s).raises = s.raises + if c = .raiseIrq then 1 else 0 := by
  simp [emit, State.raises, List.countP_cons]

@[simp] theorem raises_emit_of_ne {c : Call} (h : c ≠ .raiseIrq) (s : State) : (emit c s).raises = s.raises := by
  simp [raises_emit, h]

theorem SameBut.emit {c : Call} (h : c ≠ .raiseIrq) (s : State) : SameBut [] s (emit c s) :=
  sameBut_nil (raises := raises_emit_of_ne h s)

theorem SameBut.logEvent (k : LogKind) (info : LogInfo) (s : State) : SameBut [] s (logEvent k info s) :=
  .emit (by simp) s


/-! ### Named updates -/

theorem SameBut.withRet (x : Option Word) (s : State) : SameBut [] s (s.withRet x) := sameBut_nil

theorem SameBut.withEnv (x : Env) (s : State) : SameBut [] s (s.withEnv x) := sameBut_nil

theorem SameBut.withMem (x : Guest) (s : State) : SameBut [] s (s.withMem x) := sameBut_nil

theorem SameBut.withTmr (x : List TimerChannel) (s : State) : SameBut [] s (s.withTmr x) := sameBut_nil

theorem SameBut.withDisp (x : DisplayState) (s : State) : SameBut [] s (s.withDisp x) := sameBut_nil

theorem SameBut.withLim (x : Limiter) (s : State) : SameBut [] s (s.withLim x) := sameBut_nil

theorem SameBut.withSurface (x : List (List Word)) (s : State) : SameBut [] s (s.withSurface x) := sameBut_nil

theorem SameBut.withConn (x : ConnMatrix) (s : State) : SameBut [] s (s.withConn x) := sameBut_nil

theorem SameBut.raiseFatal (r : FatalReason) (s : State) : SameBut [] s (raiseFatal r s) := sameBut_nil

theorem SameBut.popEvent (s : State) : SameBut [] s (popEvent s) := sameBut_nil

theorem SameBut.setPhase (p : TickPhase) (s : State) : SameBut [] s (setPhase p s) := sameBut_nil

theorem SameBut.withIc (x : IcState) (s : State) : SameBut [.ic] s (s.withIc x) := by
  intro p hp
  cases p with
  | ic => simp at hp
  | timing => exact ⟨rfl, rfl⟩
  | _ => rfl

theorem SameBut.withHpt (x : List HptChannel) (s : State) : SameBut [.timing] s (s.withHpt x) := by
  intro p hp
  cases p with
  | timing => simp at hp
  | _ => rfl

theorem SameBut.withClock (x : Word) (s : State) : SameBut [.timing] s (s.withClock x) := by
  intro p hp
  cases p with
  | timing => simp at hp
  | _ => rfl

theorem SameBut.withFlash (x : List FlashBank) (s : State) : SameBut [.flash] s (s.withFlash x) := by
  intro p hp
  cases p with
  | flash => simp at hp
  | timing => exact ⟨rfl, rfl⟩
  | _ => rfl

theorem SameBut.withSd (x : SdState) (s : State) : SameBut [.sd] s (s.withSd x) := by
  intro p hp
  cases p with
  | sd => simp at hp
  | timing => exact ⟨rfl, rfl⟩
  | _ => rfl

theorem SameBut.withCf (x : CfState) (s : State) : SameBut [.transfer] s (s.withCf x) := by
  intro p hp
  cases p with
  | transfer => simp at hp
  | timing => exact ⟨rfl, rfl⟩
  | _ => rfl

/-- A CF update that keeps the pending transfer changes no part. -/
theorem SameBut.withCf_transfer {x : CfState} {s : State} (h : x.pendingDma = s.cf.pendingDma) :
    SameBut [] s (s.withCf x) :=
  sameBut_nil (transfer := h)

theorem SameBut.withAgents (x : Agents) (s : State) : SameBut [.queue] s (s.withAgents x) := by
  intro p hp
  cases p with
  | queue => simp at hp
  | timing => exact ⟨rfl, rfl⟩
  | _ => rfl

/-! ### Outcomes -/

/-- The end of a step is what it computed, or what it began at with `fatal` set (R403). -/
theorem orFatal_cases (s t : State) : orFatal s t = t ∨ ∃ r, orFatal s t = raiseFatal r s := by
  unfold orFatal
  split
  · exact .inl rfl
  · exact .inr ⟨_, rfl⟩

theorem SameBut.orFatal {ps : List Part} {s t : State} (h : SameBut ps s t) : SameBut ps s (orFatal s t) := by
  obtain e | ⟨r, e⟩ := orFatal_cases s t
  · rwa [e]
  · rw [e]
    exact (SameBut.raiseFatal r s).mono (List.nil_subset _)

theorem SameBut.of_wrote {ps : List Part} {s t u : State} (h : SameBut ps s u) (hw : wrote u = .next t) :
    SameBut ps s t := by
  rw [wrote_eq_next] at hw
  exact hw ▸ h.trans ((SameBut.withRet _ u).mono (List.nil_subset _))

theorem SameBut.of_answer {ps : List Part} {s t u : State} {v : Word} (h : SameBut ps s u)
    (ha : answer v u = .next t) : SameBut ps s t := by
  rw [answer_eq_next] at ha
  exact ha ▸ h.trans ((SameBut.withRet _ u).mono (List.nil_subset _))

theorem SameBut.of_tickerStep {ps : List Part} {f : State → State} {s t : State} (h : SameBut ps s (f s))
    (ht : tickerStep f s = .next t) : SameBut ps s t := by
  rw [tickerStep_eq_next] at ht
  obtain ⟨-, -, rfl⟩ := ht
  exact h.orFatal

/-! ### Shared operations -/

theorem SameBut.setSched (id : Nat) (d : Word) (s : State) : SameBut [.ic] s (setSched id d s) := .withIc _ s

theorem SameBut.setEnabled (id : Nat) (e : Bool) (s : State) : SameBut [.ic] s (setEnabled id e s) := .withIc _ s

theorem SameBut.queueTrigger (id d : Word) (s : State) : SameBut [.queue] s (queueTrigger id d s) := .withAgents _ s

theorem SameBut.disableLine (s : State) (id : Nat) : SameBut [.ic] s (disableLine s id) := by
  unfold Machine.disableLine
  dsimp only
  split
  · exact ((SameBut.setEnabled id false s).trans (.withIc _ _)).trans
      ((SameBut.emit (by simp) _).mono (List.nil_subset _))
  · exact .setEnabled id false s

theorem SameBut.acknowledge (s : State) : SameBut [.ic] s (acknowledge s) :=
  (SameBut.withIc _ s).trans ((SameBut.emit (by simp) _).mono (List.nil_subset _))

theorem SameBut.deliver (id : Nat) (s : State) : SameBut [.ic, .raises] s (deliver id s) := by
  intro p hp
  cases p with
  | ic => simp at hp
  | raises => simp at hp
  | _ => simp [Part.Same]

theorem SameBut.trigger (id d : Word) (s : State) : SameBut [.ic, .raises] s (trigger id d s) := by
  obtain ⟨-, e⟩ | ⟨-, -, -, -, e⟩ | ⟨-, -, e⟩ := trigger_cases id d s
  · rw [e]
    exact (SameBut.raiseFatal _ s).mono (List.nil_subset _)
  · rw [e]
    exact .deliver _ s
  · rw [e]
    exact (SameBut.setSched _ _ s).mono (by simp)

theorem SameBut.walkLine (s : State) (id : Nat) : SameBut [.ic, .raises] s (walkLine s id) := by
  obtain ⟨-, e⟩ | ⟨-, -, -, e⟩ | ⟨-, -, e⟩ := walkLine_cases s id
  · rw [e]
    exact (SameBut.setSched _ _ s).mono (by simp)
  · rw [e]
    exact ((SameBut.setSched id 0 s).mono (by simp)).trans (.deliver id _)
  · rw [e]
    exact .refl _ s

theorem SameBut.tickWalk (s : State) : SameBut [.ic, .raises] s (tickWalk s) := .foldl .walkLine _ s

theorem SameBut.timersAdvance (s : State) : SameBut [.timing] s (timersAdvance s) :=
  (SameBut.withClock _ s).trans ((SameBut.withTmr _ _).mono (List.nil_subset _))

theorem SameBut.hptCompare (s : State) : SameBut [.timing] s (hptCompare s) := .withHpt _ s

theorem SameBut.raiseHpt (fired : Bool) (s : State) : SameBut [.ic, .raises] s (raiseHpt fired s) := by
  unfold Machine.raiseHpt
  split
  · exact .trigger _ _ s
  · exact .refl _ s

theorem SameBut.timersPhase (s : State) : SameBut [.ic, .raises, .timing] s (timersPhase s) :=
  ((((SameBut.timersAdvance s).trans (.hptCompare _)).mono (by simp)).trans
    (((SameBut.tickWalk _).trans (.raiseHpt _ _)).mono (by simp))).trans
    ((SameBut.setPhase _ _).mono (List.nil_subset _))

theorem SameBut.cfIrqPhase (s : State) : SameBut [.ic, .raises] s (cfIrqPhase s) :=
  (SameBut.trigger _ _ s).trans ((SameBut.setPhase _ _).mono (List.nil_subset _))

/-! ### Storage -/

theorem SameBut.sdWriteBytes (bs : List Byte) (s : State) : SameBut [] s (sdWriteBytes bs s) := by
  induction bs generalizing s with
  | nil => exact .refl _ s
  | cons b bs ih => exact (SameBut.emit (by simp) s).trans (ih _)

theorem SameBut.cfWriteBytes (bs : List Byte) (s : State) : SameBut [] s (cfWriteBytes bs s) := by
  induction bs generalizing s with
  | nil => exact .refl _ s
  | cons b bs ih => exact (SameBut.emit (by simp) s).trans (ih _)

theorem SameBut.sdMove (dir : Dir) (s : State) : SameBut [] s (sdMove dir s) := by
  cases dir with
  | read =>
    obtain ⟨e, he⟩ := sdReadBytes_snd (sdBytes s.sd.dmaCount) s
    simp only [Machine.sdMove, he]
    exact (SameBut.withEnv e s).trans (.withMem _ _)
  | write => exact (SameBut.sdWriteBytes _ s).trans (.withMem _ _)

theorem SameBut.sdTryData (s : State) : SameBut [.sd] s (sdTryData s) := by
  unfold Machine.sdTryData
  split
  · exact .refl _ s
  · split
    · exact ((SameBut.sdMove _ s).mono (List.nil_subset _)).trans (.withSd _ _)
    · exact .refl _ s

theorem SameBut.sdTryIrq (s : State) : SameBut [.sd, .queue] s (sdTryIrq s) := by
  obtain e | ⟨-, -, e⟩ := sdTryIrq_cases s
  · rw [e]
    exact .refl _ s
  · rw [e]
    exact ((SameBut.queueTrigger _ _ s).mono (by simp)).trans ((SameBut.withSd _ _).mono (by simp))

theorem SameBut.sdCommand (s : State) : SameBut [.sd] s (sdCommand s) := by
  have logged : SameBut [.sd] s (sdLogOutstanding s) := by
    unfold sdLogOutstanding
    split
    · exact (SameBut.logEvent _ _ s).mono (List.nil_subset _)
    · exact .refl _ s
  obtain ⟨e, he⟩ := sdDoCommand_snd (sdCmd (sdTokenOf s)) (sdArg (sdTokenOf s))
    ((sdLogOutstanding s).withSd (sdCleared s.sd))
  simp only [Machine.sdCommand, he]
  exact ((logged.trans (.withSd _ _)).trans
    (((SameBut.emit (by simp) _).trans (.withEnv e _)).mono (List.nil_subset _))).trans (.withSd _ _)

/-- What a forwarded access or a completion signal of the IDE abstraction leaves (R280, R281): the answers taken, and
the CF interrupt owed where it is enabled (`ideCompleted_cases`, `afterIde_cases`). -/
def IdeSignal (s t : State) : Prop :=
  ∃ e, t = s.withEnv e ∨ t = queueTrigger s.cfg.cfIrq 0 ((s.withEnv e).withCf { s.cf with irqPending := true })

theorem SameBut.of_ideSignal {s t : State} (h : IdeSignal s t) : SameBut [.queue] s t := by
  obtain ⟨e, rfl | rfl⟩ := h
  · exact (SameBut.withEnv e s).mono (List.nil_subset _)
  · have flagged : SameBut [] s ((s.withEnv e).withCf { s.cf with irqPending := true }) :=
      (SameBut.withEnv e s).trans (.withCf_transfer rfl)
    exact (flagged.mono (List.nil_subset _)).trans (.queueTrigger _ _ _)

theorem SameBut.ideCompleted (s : State) : SameBut [.queue] s (ideCompleted s) := .of_ideSignal (ideCompleted_cases s)

theorem SameBut.afterIde (s : State) : SameBut [.queue] s (afterIde s) := .of_ideSignal (afterIde_cases s)

theorem SameBut.ideRead (off : Nat) (s : State) : SameBut [] s (ideRead off s).2 := by
  obtain ⟨e, he⟩ := ideRead_snd off s
  rw [he]
  exact (SameBut.emit (by simp) s).trans (.withEnv e _)

theorem SameBut.cfMoveWord (p : CfDma) (s : State) : SameBut [] s (cfMoveWord p s) := by
  unfold Machine.cfMoveWord
  split
  · obtain ⟨e, he⟩ := cfReadBytes_snd 4 s
    simp only [he]
    exact (SameBut.withEnv e s).trans (.withMem _ _)
  · exact (SameBut.cfWriteBytes _ s).trans (.withMem _ _)

theorem SameBut.cfSliceLoop (k : Nat) (p : CfDma) (s : State) : SameBut [] s (cfSliceLoop k p s).2 := by
  induction k generalizing p s with
  | zero => exact .refl _ s
  | succ k ih =>
    obtain ⟨e, he⟩ := cfDataReady_snd s
    have ready : SameBut [] s (cfDataReady s).2 := he ▸ .withEnv e s
    unfold Machine.cfSliceLoop
    split
    · dsimp only
      split
      · exact (ready.trans (.cfMoveWord p _)).trans (ih _ _)
      · exact ready
    · exact .refl _ s

theorem SameBut.cfSlice (s : State) : SameBut [.transfer] s (cfSlice s).2 := by
  unfold Machine.cfSlice
  split
  · exact .refl _ s
  · rename_i p hp
    dsimp only
    split <;> exact ((SameBut.cfSliceLoop _ p s).mono (List.nil_subset _)).trans (.withCf _ _)

theorem SameBut.cfPhase (s : State) : SameBut [.transfer] s (cfPhase s) :=
  (SameBut.cfSlice s).trans ((SameBut.setPhase _ _).mono (List.nil_subset _))

/-! ### Flash -/

theorem SameBut.modBank (b : Nat) (f : FlashBank → FlashBank) (s : State) : SameBut [.flash] s (modBank b f s) :=
  .withFlash _ s

theorem SameBut.flashCycle (b off : Nat) (v : Word) (s : State) : SameBut [.flash] s (flashCycle b off v s) := by
  unfold Machine.flashCycle
  split
  case h_14 => exact (SameBut.modBank b _ s).trans ((SameBut.logEvent _ _ _).mono (List.nil_subset _))
  all_goals exact .modBank b _ s

/-- Where a write is the row an operation stands for, its effect is the access's; so it always is (R329). -/
theorem flashRow_eq {w : FlashWrite} {eff : State → State} {b off : Nat} {v : Word} {s : State}
    (h : writeRow s b off v = w → flashCycle b off v s = eff s) :
    flashRow w eff b off v s = wrote (flashCycle b off v s) := by
  unfold flashRow
  split
  · rename_i hw
    rw [h hw]
  · rfl

theorem SameBut.of_flashReadAccess {b off : Nat} {s t : State} (h : flashReadAccess b off s = .next t) :
    SameBut [.flash] s t := by
  obtain ⟨f, v, e⟩ := flashReadAccess_shape b off s
  rw [e] at h
  exact (SameBut.modBank b f s).of_answer h

/-- The operations on a bank (R329): each does what an access to its bank does. -/
def onBank : Instr → Bool
  | .flRead _ _ | .flBusyRead _ _ | .flUnlock1 _ _ _ | .flUnlock2 _ _ _ | .flCmdProgram _ _ _ | .flCmdErase _ _ _
  | .flEraseUnlock1 _ _ _ | .flEraseUnlock2 _ _ _ | .flChipErase _ _ _ | .flBlockErase _ _ _
  | .flBypassEraseEntry _ _ _ | .flBypassProgramEntry _ _ _ | .flBypassChipErase _ _ _ | .flBypassBlockErase _ _ _
  | .flProgramData _ _ _ | .flBadCycle _ _ _ | .flPassR _ _ | .flPassW _ _ _ => true
  | _ => false

/-- Everything an operation on a bank does: the transition function's write cycle, or the bank's read (R329). -/
theorem exec_onBank {i : Instr} (hi : onBank i = true) (s : State) :
    (∃ b off v, exec i s = wrote (flashCycle b off v s)) ∨ ∃ b off, exec i s = flashReadAccess b off s := by
  cases i with
  | flRead b off | flBusyRead b off | flPassR b off =>
    refine .inr ⟨b, off, ?_⟩
    simp only [exec, execFlRead, execFlBusyRead, execFlPassR, flashReadAccess]
    split
    · rename_i row
      simp [row]
    · rfl
  | flUnlock1 b off v | flUnlock2 b off v | flCmdProgram b off v | flCmdErase b off v | flEraseUnlock1 b off v
  | flEraseUnlock2 b off v | flChipErase b off v | flBlockErase b off v | flBypassEraseEntry b off v
  | flBypassProgramEntry b off v | flBypassChipErase b off v | flBypassBlockErase b off v | flProgramData b off v
  | flBadCycle b off v | flPassW b off v =>
    exact .inl ⟨b, off, v, flashRow_eq (fun row => by simp [Machine.flashCycle, row])⟩
  | _ => simp [onBank] at hi

theorem SameBut.of_exec_onBank {i : Instr} {s t : State} (hi : onBank i = true) (h : exec i s = .next t) :
    SameBut [.flash] s t := by
  obtain ⟨b, off, v, e⟩ | ⟨b, off, e⟩ := exec_onBank hi s
  · exact (SameBut.flashCycle b off v s).of_wrote (e ▸ h)
  · exact .of_flashReadAccess (e ▸ h)

/-! ### Operations -/

/-- The parts an operation may change. -/
def touches : Instr → List Part
  | .icTrigger _ _ | .icTickWalk | .cfDmaIrq => [.ic, .raises]
  | .icAck | .icEnableW _ | .icDisableW _ _ | .tmrCtrlW _ _ => [.ic]
  | .tmrTick | .hptTick | .hptCmpW _ _ | .hptCtrlW _ _ | .hptStatusW _ => [.timing]
  | .sdCmdloW _ | .sdCmdhiW _ | .sdDmaregW _ _ => [.sd]
  | .sdDmactrlW _ | .sdIssue _ | .sdIrqenW _ => [.sd, .queue]
  | .dmaStart _ _ | .edmStart _ _ | .cfAtaR _ | .cfAtaW _ _ | .cfIdeDone => [.queue]
  | .cfDmaReq _ | .cfDmaSlice => [.transfer]
  | .tick => [.ic, .raises, .timing, .transfer]
  | i => if onBank i then [.flash] else []

theorem SameBut.unknownAccess (a : Word) (write : Bool) (v : Word) (s : State) :
    SameBut [] s (unknownAccess a write v s) := by
  unfold Machine.unknownAccess
  dsimp only
  split
  · exact (SameBut.withLim _ s).trans (.logEvent _ _ _)
  · exact .withLim _ s

theorem SameBut.chswReadAssign (sub : ChswSub) (off : Nat) (v : Word) (s : State) :
    SameBut [] s (chswReadAssign sub off v s) := by
  unfold Machine.chswReadAssign
  split
  · exact .logEvent _ _ s
  · split
    · exact .withConn _ s
    · exact .logEvent _ _ s

theorem SameBut.chswWriteAssign (sub : ChswSub) (off : Nat) (v : Word) (s : State) :
    SameBut [] s (chswWriteAssign sub off v s) := by
  unfold Machine.chswWriteAssign
  split
  · exact .logEvent _ _ s
  · exact .withConn _ s

theorem SameBut.sinkResize (s : State) : SameBut [] s (sinkResize s) := by
  unfold Machine.sinkResize
  split
  · exact (SameBut.withSurface _ s).trans (.emit (by simp) _)
  · exact .refl _ s

theorem SameBut.sinkBlit (dirty : List Nat) (row : Nat → List Word) (s : State) :
    SameBut [] s (sinkBlit dirty row s) := by
  unfold Machine.sinkBlit
  split
  · exact (SameBut.withSurface _ s).trans (.emit (by simp) _)
  · exact .refl _ s

theorem SameBut.compose (s : State) : SameBut [] s (compose s) :=
  (((SameBut.sinkResize s).trans (.sinkBlit _ _ _)).trans (.withDisp _ _)).trans (.withMem _ _)

theorem SameBut.cfFlag (dir : Dir) (s : State) : SameBut [.transfer] s (cfFlag dir s) := by
  unfold Machine.cfFlag
  dsimp only
  split
  · exact ((SameBut.logEvent _ _ s).mono (List.nil_subset _)).trans (.withCf _ _)
  · exact .withCf _ s

theorem SameBut.tickPhaseStep (s : State) : SameBut [.ic, .raises, .timing, .transfer] s (tickPhaseStep s) := by
  unfold Machine.tickPhaseStep
  split
  · exact (SameBut.timersPhase s).mono (by simp)
  · exact (SameBut.cfPhase s).mono (by simp)
  · exact (SameBut.cfIrqPhase s).mono (by simp)

/-- An operation changes no part but those it touches. -/
theorem SameBut.of_exec {i : Instr} {s t : State} (h : exec i s = .next t) : SameBut (touches i) s t := by
  cases i with
  | accUnknownR a => exact (SameBut.unknownAccess a false 0 s).of_answer h
  | accUnknownW a v => exact (SameBut.unknownAccess a true v s).of_wrote h
  | accUnmodeledR a | chswRead a => exact (SameBut.logEvent _ _ s).of_answer h
  | accUnmodeledW a v => exact (SameBut.logEvent _ _ s).of_wrote h
  | modelConstR a =>
    simp only [exec, execModelConstR] at h
    split at h
    · exact (SameBut.refl _ s).of_answer h
    · exact (SameBut.logEvent _ _ s).of_answer h
  | icTrigger id d =>
    cases h
    exact .trigger id d s
  | icAck => exact (SameBut.acknowledge s).of_answer h
  | icEnableW v =>
    simp only [exec, execIcEnableW] at h
    split at h
    · exact (SameBut.setEnabled _ true s).of_wrote h
    · exact ((SameBut.logEvent _ _ s).mono (List.nil_subset _)).of_wrote h
  | icDisableW k v => exact (SameBut.foldl .disableLine _ s).of_wrote h
  | icTickWalk => exact (SameBut.tickWalk s).of_tickerStep h
  | tmrCtrlW n v =>
    simp only [exec, execTmrCtrlW] at h
    split at h
    · have started := (SameBut.withTmr (s.tmr.modify n fun t => { t with enabled := true }) s).mono
        (List.nil_subset [.ic])
      split at h
      · exact (started.trans (.setSched _ _ _)).of_wrote h
      · exact started.of_wrote h
    · exact ((SameBut.withTmr _ s).mono (List.nil_subset _)).of_wrote h
  | tmrTick => exact (SameBut.timersAdvance s).of_tickerStep h
  | hptTick => exact (SameBut.hptCompare s).of_tickerStep h
  | hptCmpW n v | hptCtrlW n v | hptStatusW v => exact (SameBut.withHpt _ s).of_wrote h
  | dmaStart c v =>
    simp only [exec, execDmaStart] at h
    split at h
    · exact (((SameBut.withMem _ s).mono (List.nil_subset _)).trans (.queueTrigger _ _ _)).of_wrote h
    · exact (SameBut.refl _ s).of_wrote h
  | edmStart ch v =>
    simp only [exec, execEdmStart] at h
    split at h
    · split at h
      · cases h
        exact (SameBut.raiseFatal _ s).mono (List.nil_subset _)
      · have started : SameBut [] s (modEdmac ch (edmacStarted (resolveConn s ch)) s) :=
          sameBut_nil
        exact ((started.mono (List.nil_subset _)).trans (.queueTrigger _ _ _)).of_wrote h
    · exact (SameBut.refl _ s).of_wrote h
  | chswRW second off v => exact (SameBut.chswReadAssign _ off v s).of_wrote h
  | chswWW second off v => exact (SameBut.chswWriteAssign _ off v s).of_wrote h
  | sdCmdloW v | sdCmdhiW v => exact (SameBut.withSd _ s).of_wrote h
  | sdDmaregW r v => cases r <;> exact (SameBut.withSd _ s).of_wrote h
  | sdDmaregR r | cfDmaregR r => cases r <;> exact (SameBut.refl _ s).of_answer h
  | sdDmactrlW v =>
    have data := (SameBut.withSd { s.sd with dmaEnabled := controlBit v } s).trans (.sdTryData _)
    exact ((data.mono (qs := [.sd, .queue]) (by simp)).trans (.sdTryIrq _)).of_wrote h
  | sdIssue v =>
    simp only [exec, execSdIssue] at h
    split at h
    · have data := (SameBut.sdCommand s).trans (.sdTryData _)
      exact ((data.mono (qs := [.sd, .queue]) (by simp)).trans (.sdTryIrq _)).of_wrote h
    · exact (SameBut.refl _ s).of_wrote h
  | sdIrqenW v =>
    have stored := (SameBut.withSd { s.sd with irqEn := controlBit v } s).mono (qs := [.sd, .queue]) (by simp)
    exact (stored.trans (.sdTryIrq _)).of_wrote h
  | cfAtaR off =>
    exact (((SameBut.ideRead off s).mono (List.nil_subset _)).trans (.afterIde _)).of_answer h
  | cfAtaW off v =>
    exact (((SameBut.emit (by simp) s).mono (List.nil_subset _)).trans (.afterIde _)).of_wrote h
  | cfStatusR =>
    refine ((SameBut.ideRead s.cfg.cfStatusOff s).trans (.withCf_transfer ?_)).of_answer h
    obtain ⟨e, he⟩ := ideRead_snd s.cfg.cfStatusOff s
    simp [he]
  | cfIdeDone =>
    cases h
    exact .ideCompleted s
  | cfDmaregW r v =>
    cases r with
    | addr => exact (SameBut.withCf_transfer (x := { s.cf with dmaAddr := v }) rfl).of_wrote h
    | count => exact (SameBut.withCf_transfer (x := { s.cf with dmaCount := v }) rfl).of_wrote h
  | cfDmaenW v => exact (SameBut.withCf_transfer (x := { s.cf with dmaEnabled := controlBit v }) rfl).of_wrote h
  | cfDmaReq v =>
    simp only [exec, execCfDmaReq] at h
    split at h
    · exact ((SameBut.logEvent _ _ s).mono (List.nil_subset _)).of_wrote h
    · split at h
      · exact (SameBut.cfFlag _ s).of_wrote h
      · cases h
        exact (SameBut.raiseFatal _ s).mono (List.nil_subset _)
  | cfDmaSlice => exact (SameBut.cfPhase s).of_tickerStep h
  | cfDmaIrq => exact (SameBut.cfIrqPhase s).of_tickerStep h
  | planeAddrW p v => cases p <;> exact (SameBut.withDisp _ s).of_wrote h
  | planeAddrR p => cases p <;> exact (SameBut.refl _ s).of_answer h
  | dispCompose =>
    cases h
    exact .compose s
  | tick => exact (SameBut.tickPhaseStep s).of_tickerStep h
  | flRead | flBusyRead | flUnlock1 | flUnlock2 | flCmdProgram | flCmdErase | flEraseUnlock1 | flEraseUnlock2
  | flChipErase | flBlockErase | flBypassEraseEntry | flBypassProgramEntry | flBypassChipErase | flBypassBlockErase
  | flProgramData | flBadCycle | flPassR | flPassW => exact .of_exec_onBank rfl h
  | _ =>
    cases h
    exact sameBut_nil

/-- A part that an operation does not touch is as it was. -/
theorem exec_same {i : Instr} {s t : State} (p : Part) (h : exec i s = .next t)
    (hp : (touches i).contains p = false) : p.Same s t :=
  SameBut.of_exec h p (by simpa using hp)

/-- No operation changes the configuration. -/
theorem exec_cfg {i : Instr} {s t : State} (h : exec i s = .next t) : t.cfg = s.cfg :=
  exec_same .cfg h (by cases i <;> rfl)

end Sys2Proof.Proofs

namespace Sys2Proof.Proofs

open Sys2Proof.Machine

/-! ## Properties of the parts, along a step -/

/-- The property speaks of the parts only. -/
def OfParts (P : State → Prop) : Prop := ∀ s t, SameBut [] s t → P s → P t

section
variable {P : State → Prop} (hP : OfParts P)
include hP

theorem OfParts.of_wrote {u t : State} (hu : P u) (h : wrote u = .next t) : P t :=
  hP u t ((SameBut.refl [] u).of_wrote h) hu

theorem OfParts.of_answer {v : Word} {u t : State} (hu : P u) (h : answer v u = .next t) : P t :=
  hP u t ((SameBut.refl [] u).of_answer h) hu

theorem OfParts.orFatal {s t : State} (hs : P s) (ht : P t) : P (orFatal s t) := by
  obtain e | ⟨r, e⟩ := orFatal_cases s t
  · rwa [e]
  · rw [e]
    exact hP s _ (.raiseFatal r s) hs

theorem OfParts.of_tickerStep {f : State → State} {s t : State} (hs : P s) (hf : P (f s))
    (h : tickerStep f s = .next t) : P t := by
  rw [tickerStep_eq_next] at h
  obtain ⟨-, -, rfl⟩ := h
  exact hP.orFatal hs hf

/-- A property of the parts that every operation keeps, and every owed trigger, holds after every step (R81, R83). -/
theorem OfParts.step (op : ∀ i s t, exec i s = .next t → P s → P t)
    (owed : ∀ q rest s, s.agents.cpuQueue = q :: rest → P s →
      P (trigger q.id q.delay (s.withAgents { s.agents with cpuQueue := rest })))
    {s t : State} (h : step s = .next t) (hs : P s) : P t := by
  have popped : P (popEvent s) := hP s _ (.popEvent s) hs
  obtain ⟨-, ⟨bytes, i, -, -, -, he⟩ | ⟨q, rest, u, hq, hu, rfl⟩ | ⟨addr, bytes, -, rfl⟩ | ⟨pc, -, rfl⟩⟩ :=
    step_cases h
  · exact op i _ t he popped
  · obtain rfl | rfl := hu
    · exact hP.orFatal hs (owed q rest u hq hs)
    · exact hP.orFatal popped (owed q rest _ hq popped)
  · exact hP _ _ (.withMem _ _) popped
  · exact hP _ _ (.withEnv _ _) popped

end

/-! ## The interrupt controller (O12) -/

theorem icOk_congr {s t : State} (hc : t.cfg = s.cfg) (hi : t.ic = s.ic) (hs : s.icOk) : t.icOk := by
  unfold State.icOk
  rwa [hc, hi]

theorem icOk_ofParts : OfParts State.icOk := fun _ _ h hs => icOk_congr (h .cfg (by simp)) (h .ic (by simp)) hs

/-- A change of one line's record keeps the controller sound. -/
theorem modLine_icOk {s : State} (id : Nat) (f : Line → Line) (hs : s.icOk) : (modLine id f s).icOk := by
  obtain ⟨lines, service, level⟩ := hs
  exact ⟨by rwa [modLine_length], service, level⟩

theorem deliver_icOk {s : State} {id : Nat} (hid : id < s.cfg.maxIrq) (hs : s.icOk) : (deliver id s).icOk := by
  obtain ⟨lines, -, -⟩ := hs
  refine ⟨by rw [deliver_length, deliver_cfg, lines], fun x hx => ?_, fun _ => by rw [deliver_active]; rfl⟩
  rw [deliver_active] at hx
  cases hx
  rw [deliver_cfg]
  exact ⟨hid, by simp [enabledMask, lines]⟩

theorem acknowledge_icOk {s : State} (hs : s.icOk) : (acknowledge s).icOk := by
  obtain ⟨lines, -, -⟩ := hs
  exact ⟨lines, fun x hx => by simp [acknowledge_ic] at hx, fun h => by simp [acknowledge_ic] at h⟩

theorem disableLine_icOk {s : State} (id : Nat) (hs : s.icOk) : (disableLine s id).icOk := by
  have disabled : (setEnabled id false s).icOk := modLine_icOk id _ hs
  unfold disableLine
  dsimp only
  split
  · obtain ⟨lines, service, -⟩ := disabled
    exact ⟨lines, service, fun h => by simp at h⟩
  · exact disabled

theorem trigger_icOk {s : State} (id d : Word) (hs : s.icOk) : (trigger id d s).icOk := by
  obtain ⟨-, e⟩ | ⟨hid, -, -, -, e⟩ | ⟨-, -, e⟩ := trigger_cases id d s
  · rw [e]
    exact icOk_congr rfl rfl hs
  · rw [e]
    exact deliver_icOk hid hs
  · rw [e]
    exact modLine_icOk _ _ hs

/-- Only a line that exists is enabled. -/
theorem lt_length_of_enabled {s : State} {id : Nat} (h : (lineAt s id).enabled = true) : id < s.ic.line.length := by
  by_contra hn
  simp [lineAt, List.getD_eq_getElem?_getD, List.getElem?_eq_none (Nat.le_of_not_lt hn)] at h

theorem walkLine_icOk {s : State} (id : Nat) (hs : s.icOk) : (walkLine s id).icOk := by
  obtain ⟨-, e⟩ | ⟨-, enabled, -, e⟩ | ⟨-, -, e⟩ := walkLine_cases s id
  · rw [e]
    exact modLine_icOk _ _ hs
  · rw [e]
    exact deliver_icOk (by simpa [hs.1] using lt_length_of_enabled enabled) (modLine_icOk _ _ hs)
  · rwa [e]

/-- A loop over a list keeps what each round of it keeps. -/
theorem foldl_keeps {α : Type} {P : State → Prop} {f : State → α → State} (hf : ∀ s a, P s → P (f s a))
    (l : List α) {s : State} (hs : P s) : P (l.foldl f s) := by
  induction l generalizing s with
  | nil => exact hs
  | cons a l ih => exact ih (hf s a hs)

theorem tickWalk_icOk {s : State} (hs : s.icOk) : (tickWalk s).icOk := foldl_keeps (fun _ => walkLine_icOk) _ hs

theorem raiseHpt_icOk {s : State} (fired : Bool) (hs : s.icOk) : (raiseHpt fired s).icOk := by
  unfold raiseHpt
  split
  · exact trigger_icOk _ _ hs
  · exact hs

theorem cfIrqPhase_icOk {s : State} (hs : s.icOk) : (cfIrqPhase s).icOk := icOk_congr rfl rfl (trigger_icOk _ _ hs)

theorem tickPhaseStep_icOk {s : State} (hs : s.icOk) : (tickPhaseStep s).icOk := by
  unfold tickPhaseStep
  split
  · have ticked : (hptCompare (timersAdvance s)).icOk := icOk_congr rfl rfl hs
    exact icOk_congr rfl rfl (raiseHpt_icOk (hptFired (timersAdvance s)) (tickWalk_icOk ticked))
  · exact icOk_congr (SameBut.cfPhase s .cfg (by simp)) (SameBut.cfPhase s .ic (by simp)) hs
  · exact cfIrqPhase_icOk hs

theorem exec_icOk {i : Instr} {s t : State} (h : exec i s = .next t) (hs : s.icOk) : t.icOk := by
  cases i with
  | icTrigger id d =>
    cases h
    exact trigger_icOk id d hs
  | icAck => exact icOk_ofParts.of_answer (acknowledge_icOk hs) h
  | icEnableW v =>
    simp only [exec, execIcEnableW] at h
    split at h
    · exact icOk_ofParts.of_wrote (modLine_icOk _ _ hs) h
    · exact icOk_ofParts.of_wrote (icOk_ofParts s _ (.logEvent _ _ s) hs) h
  | icDisableW k v => exact icOk_ofParts.of_wrote (foldl_keeps (fun _ => disableLine_icOk) _ hs) h
  | icTickWalk => exact icOk_ofParts.of_tickerStep hs (tickWalk_icOk hs) h
  | cfDmaIrq => exact icOk_ofParts.of_tickerStep hs (cfIrqPhase_icOk hs) h
  | tick => exact icOk_ofParts.of_tickerStep hs (tickPhaseStep_icOk hs) h
  | tmrCtrlW n v =>
    simp only [exec, execTmrCtrlW] at h
    split at h
    · split at h
      · exact icOk_ofParts.of_wrote (modLine_icOk _ _ (icOk_ofParts s _ (.withTmr _ s) hs)) h
      · exact icOk_ofParts.of_wrote (icOk_ofParts s _ (.withTmr _ s) hs) h
    · exact icOk_ofParts.of_wrote (icOk_ofParts s _ (.withTmr _ s) hs) h
  | _ => exact icOk_congr (exec_cfg h) (exec_same .ic h rfl) hs

/-- Settles O12: every operation and every owed trigger keeps the controller sound. A delivery is of a line that exists,
by the range check of a trigger (R142) and, in the tick walk, because only a line that exists is enabled. -/
theorem interruptsStaySound : Obligations.InterruptsStaySound := fun _ _ hs h =>
  icOk_ofParts.step (fun _ _ _ => exec_icOk)
    (fun q _ _ _ hs => trigger_icOk q.id q.delay (icOk_congr rfl rfl hs)) h hs

/-! ## One delivery until the acknowledge (O20) -/

/-- What triggers and the tick walk do to the line in service: while there is one they change no line's enable and not
the CPU line, and call nothing; while there is none they deliver at most one line, once (R141, R142, R149). -/
structure Serves (s t : State) : Prop where
  busy : ∀ x, s.ic.active = some x → t.ic.active = some x ∧ t.raises = s.raises ∧ t.ic.irqLine = s.ic.irqLine ∧
    ∀ j, (lineAt t j).enabled = (lineAt s j).enabled
  idle : s.ic.active = none → (t.ic.active = none ∧ t.raises = s.raises) ∨
    ∃ x, t.ic.active = some x ∧ t.raises = s.raises + 1 ∧ t.ic.irqLine = true ∧ (lineAt t x.id).enabled = false

theorem Serves.of_same {s t : State} (hi : t.ic = s.ic) (hr : t.raises = s.raises) : Serves s t where
  busy x hx := ⟨hi ▸ hx, hr, by rw [hi], fun j => by rw [lineAt, lineAt, hi]⟩
  idle hn := .inl ⟨hi ▸ hn, hr⟩

theorem Serves.of_sameBut {ps : List Part} {s t : State} (h : SameBut ps s t)
    (hi : Part.ic ∉ ps := by simp) (hr : Part.raises ∉ ps := by simp) : Serves s t :=
  .of_same (h .ic hi) (h .raises hr)

theorem Serves.refl (s : State) : Serves s s := .of_same rfl rfl

theorem Serves.trans {s t u : State} (h : Serves s t) (k : Serves t u) : Serves s u where
  busy x hx := by
    obtain ⟨active, raises, level, enabled⟩ := h.busy x hx
    obtain ⟨active', raises', level', enabled'⟩ := k.busy x active
    exact ⟨active', raises'.trans raises, level'.trans level, fun j => (enabled' j).trans (enabled j)⟩
  idle hn := by
    obtain ⟨active, raises⟩ | ⟨x, active, raises, level, disabled⟩ := h.idle hn
    · rw [← raises]
      exact k.idle active
    · obtain ⟨active', raises', level', enabled'⟩ := k.busy x active
      exact .inr ⟨x, active', raises'.trans raises, level'.trans level, (enabled' x.id).trans disabled⟩

theorem Serves.foldl {α : Type} {f : State → α → State} (h : ∀ s a, Serves s (f s a)) (l : List α) (s : State) :
    Serves s (l.foldl f s) := foldl_keeps (P := Serves s) (fun u a hu => hu.trans (h u a)) l (.refl s)

theorem Serves.orFatal {s t : State} (h : Serves s t) : Serves s (orFatal s t) := by
  obtain e | ⟨r, e⟩ := orFatal_cases s t
  · rwa [e]
  · rw [e]
    exact .of_same rfl rfl

/-- A countdown set leaves every line's enable. -/
theorem lineAt_setSched_enabled (id j : Nat) (d : Word) (s : State) :
    (lineAt (setSched id d s) j).enabled = (lineAt s j).enabled := by
  simp only [lineAt, setSched, modLine, State.withIc_ic, List.getD_eq_getElem?_getD, List.getElem?_modify]
  cases s.ic.line[j]? with
  | none => rfl
  | some l => by_cases hj : id = j <;> simp [hj]

theorem Serves.setSched (id : Nat) (d : Word) (s : State) : Serves s (setSched id d s) where
  busy _ hx := ⟨hx, rfl, rfl, fun j => lineAt_setSched_enabled id j d s⟩
  idle hn := .inl ⟨hn, rfl⟩

/-- A delivery disables the line it delivers (R141). -/
theorem deliver_disables (id : Nat) (s : State) : (lineAt (deliver id s) id).enabled = false := by
  have rearm (u : State) : (lineAt (osRearm u) id).enabled = (lineAt u id).enabled := by
    unfold osRearm
    split
    · exact lineAt_setSched_enabled _ id _ u
    · rfl
  have disabled (l : List Line) :
      ((l.modify id fun x => { x with enabled := false }).getD id ⟨false, 0⟩).enabled = false := by
    rw [List.getD_eq_getElem?_getD, List.getElem?_modify]
    cases l[id]? <;> simp
  unfold deliver
  dsimp only
  split
  · rw [rearm]
    exact disabled s.ic.line
  · exact disabled s.ic.line

theorem Serves.deliver {s : State} (id : Nat) (hn : s.ic.active = none) : Serves s (deliver id s) where
  busy x hx := by simp [hn] at hx
  idle _ := .inr ⟨⟨id, enabledMask s⟩, deliver_active id s, by simp [State.raises], deliver_irqLine id s,
    deliver_disables id s⟩

theorem Serves.trigger (id d : Word) (s : State) : Serves s (trigger id d s) := by
  obtain ⟨-, e⟩ | ⟨-, -, -, hn, e⟩ | ⟨-, -, e⟩ := trigger_cases id d s
  · rw [e]
    exact .of_same rfl rfl
  · rw [e]
    exact .deliver _ hn
  · rw [e]
    exact .setSched _ _ s

theorem Serves.walkLine (s : State) (id : Nat) : Serves s (walkLine s id) := by
  obtain ⟨-, e⟩ | ⟨-, -, hn, e⟩ | ⟨-, -, e⟩ := walkLine_cases s id
  · rw [e]
    exact .setSched _ _ s
  · rw [e]
    exact (Serves.setSched id 0 s).trans (.deliver id hn)
  · rw [e]
    exact .refl s

theorem Serves.tickWalk (s : State) : Serves s (tickWalk s) := .foldl .walkLine _ s

theorem Serves.raiseHpt (fired : Bool) (s : State) : Serves s (raiseHpt fired s) := by
  unfold Machine.raiseHpt
  split
  · exact .trigger _ _ s
  · exact .refl s

theorem Serves.cfIrqPhase (s : State) : Serves s (cfIrqPhase s) :=
  (Serves.trigger s.cfg.cfDmaIrq 0 s).trans (.of_same rfl rfl)

theorem Serves.tickPhaseStep (s : State) : Serves s (tickPhaseStep s) := by
  unfold Machine.tickPhaseStep
  split
  · have ticked : Serves s (hptCompare (timersAdvance s)) := .of_same rfl rfl
    exact ((ticked.trans (.tickWalk _)).trans (.raiseHpt _ _)).trans (.of_same rfl rfl)
  · exact .of_sameBut (.cfPhase s)
  · exact .cfIrqPhase s

/-- What every operation but the acknowledge does to the line in service (R24, R143, R144). -/
def Served (s t : State) : Prop :=
  (∀ x, s.ic.active = some x → t.raises = s.raises ∧ t.ic.active = some x) ∧
    (s.ic.active = none →
      (t.ic.active = none ∧ t.raises = s.raises) ∨
      (∃ x, t.ic.active = some x ∧ t.raises = s.raises + 1 ∧ t.ic.irqLine = true ∧ (lineAt t x.id).enabled = false))

theorem Serves.served {s t : State} (h : Serves s t) : Served s t :=
  ⟨fun x hx => ⟨(h.busy x hx).2.1, (h.busy x hx).1⟩, h.idle⟩

theorem served_of_same {s t : State} (hi : t.ic.active = s.ic.active) (hr : t.raises = s.raises) : Served s t :=
  ⟨fun _ hx => ⟨hr, hi.trans hx⟩, fun hn => .inl ⟨hi.trans hn, hr⟩⟩

@[simp] theorem disableLine_active (s : State) (id : Nat) : (disableLine s id).ic.active = s.ic.active := by
  unfold disableLine
  dsimp only
  split <;> rfl

theorem Serves.of_tickerStep {f : State → State} {s t : State} (hf : Serves s (f s))
    (h : tickerStep f s = .next t) : Serves s t := by
  rw [tickerStep_eq_next] at h
  obtain ⟨-, -, rfl⟩ := h
  exact hf.orFatal

theorem exec_served {i : Instr} {s t : State} (hi : i ≠ .icAck) (h : exec i s = .next t) : Served s t := by
  cases i with
  | icAck => exact absurd rfl hi
  | icTrigger id d =>
    cases h
    exact (Serves.trigger id d s).served
  | icTickWalk => exact (Serves.of_tickerStep (.tickWalk s) h).served
  | cfDmaIrq => exact (Serves.of_tickerStep (.cfIrqPhase s) h).served
  | tick => exact (Serves.of_tickerStep (.tickPhaseStep s) h).served
  | icEnableW v =>
    refine served_of_same ?_ (exec_same .raises h rfl)
    simp only [exec, execIcEnableW] at h
    split at h <;> cases h <;> rfl
  | icDisableW k v =>
    refine served_of_same ?_ (exec_same .raises h rfl)
    cases h
    exact foldl_keeps (P := fun u => u.ic.active = s.ic.active)
      (fun u id hu => (disableLine_active u id).trans hu) _ rfl
  | tmrCtrlW n v =>
    refine served_of_same ?_ (exec_same .raises h rfl)
    simp only [exec, execTmrCtrlW] at h
    split at h
    · split at h <;> cases h <;> rfl
    · cases h
      rfl
  | _ => exact (Serves.of_same (exec_same .ic h rfl) (exec_same .raises h rfl)).served

/-- The acknowledge ends the service and raises nothing (R145). -/
theorem exec_icAck_service {s t : State} (h : exec .icAck s = .next t) :
    t.ic.active = none ∧ t.raises = s.raises := by
  have raises := exec_same .raises h rfl
  cases h
  exact ⟨rfl, raises⟩

/-- Settles O20: a step is an acknowledge, or it serves as triggers and the tick walk do. -/
theorem oneDeliveryUntilAcknowledge : Obligations.OneDeliveryUntilAcknowledge := by
  intro s t h
  suffices Served s t ∨ (t.ic.active = none ∧ t.raises = s.raises ∧ s.agents.cpuQueue = [] ∧
      ∃ bytes, nextEvent s = .request bytes ∧ decode s.view bytes = .ok .icAck) by
    obtain ⟨busy, idle⟩ | ⟨active, raises, queue, asked⟩ := this
    · exact ⟨fun x hx => ⟨(busy x hx).1, .inl (busy x hx).2⟩, idle⟩
    · exact ⟨fun _ _ => ⟨raises, .inr ⟨active, queue, asked⟩⟩, fun _ => .inl ⟨active, raises⟩⟩
  obtain ⟨-, ⟨bytes, i, hb, hd, hcpu, he⟩ | ⟨q, rest, u, hq, hu, rfl⟩ | ⟨addr, bytes, -, rfl⟩ | ⟨pc, -, rfl⟩⟩ :=
    step_cases h
  · by_cases hi : i = .icAck
    · subst hi
      obtain ⟨active, raises⟩ := exec_icAck_service he
      exact .inr ⟨active, raises, (hcpu rfl).1, bytes, hb, hd⟩
    · exact .inl (show Served (popEvent s) t from exec_served hi he)
  · have dropped : Serves u (u.withAgents { u.agents with cpuQueue := rest }) := .of_same rfl rfl
    have triggered := (dropped.trans (.trigger q.id q.delay _)).orFatal.served
    obtain rfl | rfl := hu <;> exact .inl triggered
  · exact .inl (served_of_same rfl rfl)
  · exact .inl (served_of_same rfl rfl)

/-! ## The clock and the compare values (O13) -/

theorem timersOk_iff (c : Cfg) : c.timersOk = true ↔
    c.osTimerCh < c.nTimers ∧ 1 ≤ c.clockStep ∧ 0 < c.clockMod ∧ c.clockMod % c.clockStep = 0 ∧
      c.clockMod ≤ 2 ^ 32 := by
  simp only [Cfg.timersOk, Bool.and_eq_true, decide_eq_true_eq, and_assoc]

/-- A multiple of the step below the modulus is a value of the clock. -/
theorem onClock_ofNat {c : Cfg} {n : Nat} (hc : c.timersOk = true) (lt : n < c.clockMod) (dvd : c.clockStep ∣ n) :
    onClock c (BitVec.ofNat 32 n) := by
  obtain ⟨-, -, -, -, fits⟩ := (timersOk_iff c).1 hc
  have value : (BitVec.ofNat 32 n).toNat = n := by
    rw [BitVec.toNat_ofNat, Nat.mod_eq_of_lt (lt_of_lt_of_le lt fits)]
  rw [onClock, value]
  exact ⟨lt, Nat.mod_eq_zero_of_dvd dvd⟩

/-- The clock advances to one of its values (R180): the modulus is a multiple of the step. -/
theorem clockNext_onClock {c : Cfg} {x : Word} (hc : c.timersOk = true) (hx : onClock c x) :
    onClock c (clockNext c x) := by
  obtain ⟨-, -, pos, period, -⟩ := (timersOk_iff c).1 hc
  have next : c.clockStep ∣ x.toNat + c.clockStep := (Nat.dvd_of_mod_eq_zero hx.2).add (Nat.dvd_refl _)
  exact onClock_ofNat hc (Nat.mod_lt _ pos) ((Nat.dvd_mod_iff (Nat.dvd_of_mod_eq_zero period)).2 next)

/-- A quantized compare value is one of the clock's (R97, R190). -/
theorem quantize_onClock {c : Cfg} (hc : c.timersOk = true) (v : Word) : onClock c (quantize c v) := by
  obtain ⟨-, -, pos, -, -⟩ := (timersOk_iff c).1 hc
  exact onClock_ofNat hc (lt_of_le_of_lt (Nat.div_mul_le_self _ _) (Nat.mod_lt _ pos)) (Nat.dvd_mul_left _ _)

theorem clockOk_congr {s t : State} (hc : t.cfg = s.cfg) (ht : t.clock = s.clock ∧ t.hpt = s.hpt) (hs : s.clockOk) :
    t.clockOk := by
  unfold State.clockOk
  rwa [hc, ht.1, ht.2]

theorem clockOk_ofParts : OfParts State.clockOk := fun _ _ h =>
  clockOk_congr (h .cfg (by simp)) (h .timing (by simp))

theorem withHpt_clockOk {s : State} {l : List HptChannel} (hl : ∀ ch ∈ l, onClock s.cfg ch.ocv) (hs : s.clockOk) :
    (s.withHpt l).clockOk := ⟨hs.1, hs.2.1, hl⟩

/-- An entry of a list changed in one place is an entry of the list, or the changed one. -/
theorem mem_modify {α : Type} {l : List α} {n : Nat} {f : α → α} {x : α} (h : x ∈ l.modify n f) :
    x ∈ l ∨ ∃ y, l[n]? = some y ∧ x = f y := by
  obtain ⟨j, hj⟩ := List.mem_iff_getElem?.1 h
  rw [List.getElem?_modify] at hj
  obtain ⟨y, hy, rfl⟩ := Option.map_eq_some_iff.1 hj
  split
  · rename_i e
    exact .inr ⟨y, e ▸ hy, rfl⟩
  · exact .inl (List.mem_of_getElem? hy)

/-- A change of one channel that leaves or gives a value of the clock keeps the compare values on the clock's. -/
theorem modHpt_clockOk {s : State} {n : Nat} {f : HptChannel → HptChannel}
    (hf : ∀ ch, onClock s.cfg ch.ocv → onClock s.cfg (f ch).ocv) (hs : s.clockOk) : (modHpt n f s).clockOk := by
  obtain ⟨-, -, channels⟩ := id hs
  refine withHpt_clockOk (fun ch hch => ?_) hs
  obtain old | ⟨y, hy, rfl⟩ := mem_modify hch
  · exact channels ch old
  · exact hf y (channels y (List.mem_of_getElem? hy))

theorem hptCompared_ocv (c : Cfg) (clock : Word) (ch : HptChannel) : (hptCompared c clock ch).ocv = ch.ocv := by
  unfold hptCompared
  split <;> rfl

theorem hptCompare_clockOk {s : State} (hs : s.clockOk) : (hptCompare s).clockOk := by
  obtain ⟨-, -, channels⟩ := id hs
  refine withHpt_clockOk (fun ch hch => ?_) hs
  obtain ⟨y, hy, rfl⟩ := List.mem_map.1 hch
  rw [hptCompared_ocv]
  exact channels y hy

theorem hptClear_clockOk {s : State} (v : Word) (hs : s.clockOk) : (s.withHpt (hptClear v s.hpt)).clockOk := by
  obtain ⟨-, -, channels⟩ := id hs
  refine withHpt_clockOk (fun ch hch => ?_) hs
  obtain ⟨j, hj, rfl⟩ := List.mem_mapIdx.1 hch
  have kept := channels s.hpt[j] (List.getElem_mem hj)
  split <;> exact kept

theorem timersAdvance_clockOk {s : State} (hs : s.clockOk) : (timersAdvance s).clockOk := by
  obtain ⟨hc, clock, channels⟩ := hs
  exact ⟨hc, clockNext_onClock hc clock, channels⟩

theorem tickPhaseStep_clockOk {s : State} (hs : s.clockOk) : (tickPhaseStep s).clockOk := by
  unfold tickPhaseStep
  split
  · have served : SameBut [.ic, .raises] (hptCompare (timersAdvance s)) (timersPhase s) :=
      ((SameBut.tickWalk _).trans (.raiseHpt _ _)).trans ((SameBut.setPhase _ _).mono (List.nil_subset _))
    exact clockOk_congr (served .cfg (by simp)) (served .timing (by simp))
      (hptCompare_clockOk (timersAdvance_clockOk hs))
  · exact clockOk_congr (SameBut.cfPhase s .cfg (by simp)) (SameBut.cfPhase s .timing (by simp)) hs
  · exact clockOk_congr (SameBut.cfIrqPhase s .cfg (by simp)) (SameBut.cfIrqPhase s .timing (by simp)) hs

theorem exec_clockOk {i : Instr} {s t : State} (h : exec i s = .next t) (hs : s.clockOk) : t.clockOk := by
  cases i with
  | tmrTick => exact clockOk_ofParts.of_tickerStep hs (timersAdvance_clockOk hs) h
  | hptTick => exact clockOk_ofParts.of_tickerStep hs (hptCompare_clockOk hs) h
  | tick => exact clockOk_ofParts.of_tickerStep hs (tickPhaseStep_clockOk hs) h
  | hptCmpW n v => exact clockOk_ofParts.of_wrote (modHpt_clockOk (fun _ _ => quantize_onClock hs.1 v) hs) h
  | hptCtrlW n v =>
    exact clockOk_ofParts.of_wrote
      (modHpt_clockOk (f := fun ch => { ch with active := controlBit v }) (fun _ kept => kept) hs) h
  | hptStatusW v => exact clockOk_ofParts.of_wrote (hptClear_clockOk v hs) h
  | _ => exact clockOk_congr (exec_cfg h) (exec_same .timing h rfl) hs

/-- Settles O13: the clock's advance and the quantization stay on the multiples of the step below the modulus. -/
theorem clockStaysOnItsValues : Obligations.ClockStaysOnItsValues := fun _ _ hs h =>
  clockOk_ofParts.step (fun _ _ _ => exec_clockOk)
    (fun q _ _ _ => clockOk_congr (trigger_cfg q.id q.delay _) ⟨trigger_clock .., trigger_hpt ..⟩) h hs

/-! ## The flash banks (O14) -/

theorem flashOk_congr {s t : State} (hc : t.cfg = s.cfg) (hf : t.flash = s.flash) (hs : s.flashOk) : t.flashOk := by
  unfold State.flashOk
  rwa [hc, hf]

theorem flashOk_ofParts : OfParts State.flashOk := fun _ _ h => flashOk_congr (h .cfg (by simp)) (h .flash (by simp))

theorem bankAt_eq {s : State} {b : Nat} {x : FlashBank} (h : s.flash[b]? = some x) : bankAt s b = x := by
  simp [bankAt, List.getD_eq_getElem?_getD, h]

/-- A change of one bank that leaves it sound keeps the banks sound. -/
theorem modBank_flashOk {s : State} {b : Nat} {f : FlashBank → FlashBank}
    (hf : FlashBank.ok s.cfg (bankAt s b) → FlashBank.ok s.cfg (f (bankAt s b))) (hs : s.flashOk) :
    (modBank b f s).flashOk := by
  obtain ⟨hc, banks⟩ := hs
  refine ⟨hc, fun x hx => ?_⟩
  obtain old | ⟨y, hy, rfl⟩ := mem_modify hx
  · exact banks x old
  · rw [← bankAt_eq hy]
    exact hf (bankAt_eq hy ▸ banks y (List.mem_of_getElem? hy))

/-- A bank in READ that counts no busy read is sound. -/
theorem bank_ok_read {c : Cfg} {x : FlashBank} (hst : x.state = .read) (hb : x.busyReads = 0) : FlashBank.ok c x := by
  simp [FlashBank.ok, hst, hb]

/-- A bank that leaves a state other than BLOCK_ERASE_BUSY for another such one, and no state of the bypass, is sound
(R326). -/
theorem bank_ok_move {c : Cfg} {x y : FlashBank} (en : c.flashSmEnabled = true) (hx : FlashBank.ok c x)
    (idle : x.state ≠ .blockEraseBusy) (target : y.state ∉ [.unlockBypass, .unlockBypassReset, .blockEraseBusy])
    (hb : y.busyReads = x.busyReads) : FlashBank.ok c y := by
  obtain ⟨-, -, -, uncounted, -⟩ := hx
  simp only [List.mem_cons, List.not_mem_nil, or_false, not_or] at target
  obtain ⟨bypass, reset, busy⟩ := target
  exact ⟨bypass, reset, fun h => absurd h busy, fun _ => hb.trans (uncounted idle), fun dis => by simp [en] at dis⟩

/-- A write row other than the unexpected cycle and the pass-through is one of the enabled state machine, and not of
BLOCK_ERASE_BUSY (R329, R330). -/
theorem selectFlashWrite_command {c : Cfg} {st : FlashState} {off : Nat} {v : Word}
    (bad : selectFlashWrite c st off v ≠ .badCycle) (pass : selectFlashWrite c st off v ≠ .pass) :
    c.flashSmEnabled = true ∧ st ≠ .blockEraseBusy := by
  have en : c.flashSmEnabled = true := by
    by_contra dis
    simp [selectFlashWrite, dis] at pass
  refine ⟨en, ?_⟩
  rintro rfl
  simp [selectFlashWrite, en] at bad

theorem chipErase_flashOk {s : State} {b : Nat} (en : s.cfg.flashSmEnabled = true)
    (idle : (bankAt s b).state ≠ .blockEraseBusy) (hs : s.flashOk) : (chipErase b s).flashOk :=
  modBank_flashOk (fun hx => bank_ok_move (y := { state := .read, .. }) en hx idle (by simp) rfl) hs

theorem setFlash_flashOk {s : State} {b : Nat} {st : FlashState} (en : s.cfg.flashSmEnabled = true)
    (idle : (bankAt s b).state ≠ .blockEraseBusy)
    (target : st ∉ [.unlockBypass, .unlockBypassReset, .blockEraseBusy]) (hs : s.flashOk) : (setFlash b st s).flashOk :=
  modBank_flashOk (fun hx => bank_ok_move en hx idle target rfl) hs

/-- A block erase makes the bank busy, no read counted yet (R320, R328). -/
theorem blockErase_flashOk {s : State} {b off : Nat} (en : s.cfg.flashSmEnabled = true) (hs : s.flashOk) :
    (blockErase b off s).flashOk :=
  modBank_flashOk (fun _ => ⟨nofun, nofun, fun _ => Nat.zero_le _, fun h => absurd rfl h,
    fun dis => by simp [en] at dis⟩) hs

/-- Every write cycle keeps the banks sound, by the row it is (R329). -/
theorem flashCycle_flashOk {s : State} (b off : Nat) (v : Word) (hs : s.flashOk) : (flashCycle b off v s).flashOk := by
  have command := selectFlashWrite_command (c := s.cfg) (st := (bankAt s b).state) (off := off) (v := v)
  change writeRow s b off v ≠ .badCycle → writeRow s b off v ≠ .pass → _ at command
  unfold flashCycle
  cases row : writeRow s b off v with
  | badCycle =>
    have stopped : (modBank b (fun x => { x with state := .read, busyReads := 0 }) s).flashOk :=
      modBank_flashOk (fun _ => bank_ok_read rfl rfl) hs
    exact flashOk_ofParts _ _ (.logEvent _ _ _) stopped
  | pass => exact modBank_flashOk (f := fun x => { x with image := _ }) (fun hx => hx) hs
  | blockErase | bypassBlockErase => exact blockErase_flashOk (command (by simp [row]) (by simp [row])).1 hs
  | chipErase | bypassChipErase =>
    obtain ⟨en, idle⟩ := command (by simp [row]) (by simp [row])
    exact chipErase_flashOk en idle hs
  | programData =>
    obtain ⟨en, idle⟩ := command (by simp [row]) (by simp [row])
    exact modBank_flashOk (fun hx => bank_ok_move (y := { state := .read, .. }) en hx idle (by simp) rfl) hs
  | _ =>
    obtain ⟨en, idle⟩ := command (by simp [row]) (by simp [row])
    exact setFlash_flashOk en idle (by decide) hs

theorem selectFlashRead_busy {c : Cfg} {st : FlashState} :
    selectFlashRead c st = .busy ↔ c.flashSmEnabled = true ∧ st = .blockEraseBusy := by
  unfold selectFlashRead
  split_ifs <;> simp_all

/-- A busy read counts up to FLASH_BUSY_READS, and the one after ends the erase (R328). -/
theorem busyRead_flashOk {s : State} {b : Nat} (busy : (bankAt s b).state = .blockEraseBusy)
    (en : s.cfg.flashSmEnabled = true) (hs : s.flashOk) : (busyRead b s).flashOk := by
  unfold busyRead
  split
  · rename_i lt
    have counted : ((bankAt s b).busyReads + 1).toNat ≤ s.cfg.flashBusyReads := by
      rw [BitVec.toNat_add]
      exact (Nat.mod_le _ _).trans lt
    exact modBank_flashOk (fun _ => ⟨by simp [busy], by simp [busy], fun _ => counted, fun h => absurd busy h,
      fun dis => by simp [en] at dis⟩) hs
  · exact modBank_flashOk (fun _ => bank_ok_read rfl rfl) hs

theorem flashReadAccess_flashOk {s t : State} {b off : Nat} (h : flashReadAccess b off s = .next t) (hs : s.flashOk) :
    t.flashOk := by
  unfold flashReadAccess at h
  split at h
  · exact flashOk_ofParts.of_answer hs h
  · rename_i row
    obtain ⟨en, busy⟩ := selectFlashRead_busy.1 row
    exact flashOk_ofParts.of_answer (busyRead_flashOk busy en hs) h
  · exact flashOk_ofParts.of_answer hs h

/-- Only an operation on a bank touches the banks. -/
theorem touches_flash (i : Instr) : (touches i).contains .flash = onBank i := by
  cases i <;> rfl

theorem exec_flashOk {i : Instr} {s t : State} (h : exec i s = .next t) (hs : s.flashOk) : t.flashOk := by
  by_cases hb : onBank i = true
  · obtain ⟨b, off, v, e⟩ | ⟨b, off, e⟩ := exec_onBank hb s
    · exact flashOk_ofParts.of_wrote (flashCycle_flashOk b off v hs) (e ▸ h)
    · exact flashReadAccess_flashOk (e ▸ h) hs
  · exact flashOk_congr (exec_cfg h) (exec_same .flash h ((touches_flash i).trans (by simpa using hb))) hs

/-- Settles O14: every operation on a bank is a write cycle or a read of it, and both keep the banks sound, row by
row. -/
theorem flashStaysSound : Obligations.FlashStaysSound := fun _ _ hs h =>
  flashOk_ofParts.step (fun _ _ _ => exec_flashOk)
    (fun q _ _ _ => flashOk_congr (trigger_cfg q.id q.delay _) (trigger_flash ..)) h hs

/-! ## The SDIO and CF controllers and the owed triggers (O16) -/

/-! ### The SDIO controller -/

/-- The status word has no bit outside the mask. -/
def Within (mask x : Word) : Prop := x &&& ~~~ mask = 0

theorem Within.or {mask x y : Word} (hx : Within mask x) (hy : Within mask y) : Within mask (x ||| y) := by
  unfold Within at *
  rw [BitVec.and_or_distrib_right, hx, hy]
  rfl

theorem sdOk_congr {s t : State} (hc : t.cfg = s.cfg) (ho : t.sd.outstanding = s.sd.outstanding)
    (hst : t.sd.status = s.sd.status) (hs : s.sdOk) : t.sdOk := by
  unfold State.sdOk
  rwa [hc, ho, hst]

theorem sdOk_of_same {s t : State} (hc : t.cfg = s.cfg) (hd : t.sd = s.sd) (hs : s.sdOk) : t.sdOk :=
  sdOk_congr hc (by rw [hd]) (by rw [hd]) hs

theorem sdOk_ofParts : OfParts State.sdOk := fun _ _ h => sdOk_of_same (h .cfg (by simp)) (h .sd (by simp))

theorem within_or_left (x y : Word) : Within (x ||| y) x := by
  unfold Within
  ext i hi
  cases h : x[i] <;> simp [h]

theorem within_or_right (x y : Word) : Within (x ||| y) y := by
  rw [BitVec.or_comm]
  exact within_or_left y x

theorem Within.mono {m x : Word} (y : Word) (hx : Within m x) : Within (m ||| y) x := by
  unfold Within at *
  rw [BitVec.not_or, ← BitVec.and_assoc, hx]
  exact BitVec.zero_and

/-- The three status bits are those of the mask. -/
theorem within_statusBits (c : Cfg) :
    Within (sdStatusMask c) (bitMask c.sdStDone) ∧ Within (sdStatusMask c) (bitMask c.sdStData) ∧
      Within (sdStatusMask c) (bitMask c.sdStErr) :=
  ⟨(within_or_left _ _).mono _, (within_or_right _ _).mono _, within_or_right _ _⟩

/-- A command's completion leaves the controller sound (R265). -/
theorem sdCommand_sdOk (s : State) : (sdCommand s).sdOk := by
  obtain ⟨done, -, err⟩ := within_statusBits s.cfg
  obtain ⟨c, e, r, he⟩ := sdCommand_shape s
  rw [he]
  cases r with
  | fail => exact ⟨fun o ho => by simp [sdCompleted, sdCleared] at ho, done.or err⟩
  | resp4 b | resp16 b =>
    refine ⟨fun o ho => ?_, done⟩
    simp only [State.withSd_sd, sdCompleted, sdCleared] at ho
    split at ho
    · rename_i data
      cases ho
      exact ⟨data, rfl, rfl⟩
    · cases ho

/-- A data phase ends the outstanding command and adds the "data available" bit (R266). -/
theorem sdTryData_sdOk {s : State} (hs : s.sdOk) : (sdTryData s).sdOk := by
  have status := hs.2
  have moved : ∀ o (u : State), u.cfg = s.cfg → (u.withSd (sdPhaseDone s.cfg o s.sd)).sdOk := fun o u hu =>
    ⟨fun _ ho => by simp [sdPhaseDone] at ho, by
      rw [State.withSd_cfg, hu]
      exact Within.or status (within_statusBits s.cfg).2.1⟩
  obtain e | ⟨o, -, -, ⟨-, bs, env, -, e⟩ | ⟨-, c, e⟩⟩ := sdTryData_cases s
  · rwa [e]
  · rw [e]
    exact moved o _ rfl
  · rw [e]
    exact moved o _ rfl

theorem sdTryIrq_sdOk {s : State} (hs : s.sdOk) : (sdTryIrq s).sdOk := by
  obtain e | ⟨-, -, e⟩ := sdTryIrq_cases s
  · rwa [e]
  · rw [e]
    exact sdOk_congr rfl rfl rfl hs

theorem exec_sdOk {i : Instr} {s t : State} (h : exec i s = .next t) (hs : s.sdOk) : t.sdOk := by
  cases i with
  | sdCmdloW v | sdCmdhiW v =>
    cases h
    exact sdOk_congr (s := s) rfl rfl rfl hs
  | sdDmaregW r v => cases r <;> cases h <;> exact sdOk_congr (s := s) rfl rfl rfl hs
  | sdDmactrlW v =>
    have stored : (s.withSd { s.sd with dmaEnabled := controlBit v }).sdOk := sdOk_congr rfl rfl rfl hs
    exact sdOk_ofParts.of_wrote (sdTryIrq_sdOk (sdTryData_sdOk stored)) h
  | sdIssue v =>
    simp only [exec, execSdIssue] at h
    split at h
    · exact sdOk_ofParts.of_wrote (sdTryIrq_sdOk (sdTryData_sdOk (sdCommand_sdOk s))) h
    · exact sdOk_ofParts.of_wrote hs h
  | sdIrqenW v =>
    have stored : (s.withSd { s.sd with irqEn := controlBit v }).sdOk := sdOk_congr rfl rfl rfl hs
    exact sdOk_ofParts.of_wrote (sdTryIrq_sdOk stored) h
  | _ => exact sdOk_of_same (exec_cfg h) (exec_same .sd h rfl) hs

/-! ### The CF controller -/

theorem cfOk_congr {s t : State} (h : t.cf.pendingDma = s.cf.pendingDma) (hs : s.cfOk) : t.cfOk := by
  unfold State.cfOk
  rwa [h]

theorem cfOk_ofParts : OfParts State.cfOk := fun _ _ h => cfOk_congr (h .transfer (by simp))

/-- A transfer just flagged has moved nothing (R286). -/
theorem cfFlag_cfOk (dir : Dir) (s : State) : (cfFlag dir s).cfOk := by
  intro p hp
  cases hp
  exact Nat.zero_le _

/-- A slice never moves more words than the transfer has (R287). -/
theorem cfPhase_cfOk {s : State} (hs : s.cfOk) : (cfPhase s).cfOk := by
  refine cfOk_congr (s := (cfSlice s).2) rfl ?_
  unfold cfSlice
  split
  · exact hs
  · rename_i p hp
    obtain ⟨d, -, bound, moved⟩ := cfSliceLoop_transfer s.cfg.cfSliceWords p s (hs p hp)
    dsimp only
    split
    · intro x hx
      cases hx
    · intro x hx
      cases hx
      rw [moved]
      exact bound

theorem tickPhaseStep_cfOk {s : State} (hs : s.cfOk) : (tickPhaseStep s).cfOk := by
  unfold tickPhaseStep
  split
  · exact cfOk_congr (SameBut.timersPhase s .transfer (by simp)) hs
  · exact cfPhase_cfOk hs
  · exact cfOk_congr (SameBut.cfIrqPhase s .transfer (by simp)) hs

theorem exec_cfOk {i : Instr} {s t : State} (h : exec i s = .next t) (hs : s.cfOk) : t.cfOk := by
  cases i with
  | cfDmaReq v =>
    simp only [exec, execCfDmaReq] at h
    split at h
    · exact cfOk_ofParts.of_wrote (cfOk_ofParts s _ (.logEvent _ _ s) hs) h
    · split at h
      · exact cfOk_ofParts.of_wrote (cfFlag_cfOk _ s) h
      · cases h
        exact cfOk_congr rfl hs
  | cfDmaSlice => exact cfOk_ofParts.of_tickerStep hs (cfPhase_cfOk hs) h
  | tick => exact cfOk_ofParts.of_tickerStep hs (tickPhaseStep_cfOk hs) h
  | _ => exact cfOk_congr (exec_same .transfer h rfl) hs

/-! ### The owed triggers -/

theorem queueOk_congr {s t : State} (hc : t.cfg = s.cfg) (hq : t.agents.cpuQueue = s.agents.cpuQueue)
    (hs : s.queueOk) : t.queueOk := by
  unfold State.queueOk
  rwa [hc, hq]

theorem queueOk_ofParts : OfParts State.queueOk := fun _ _ h =>
  queueOk_congr (h .cfg (by simp)) (h .queue (by simp))

/-- Every id the configuration names is a line's, where its ids exist (R433). -/
theorem lt_maxIrq_of_idsOk {c : Cfg} {id : Word} (hc : c.idsOk = true) (hid : id ∈ c.irqIds) : id.toNat < c.maxIrq :=
  of_decide_eq_true (List.all_eq_true.1 hc id hid)

theorem queueTrigger_queueOk {s : State} {id d : Word} (hid : id.toNat < s.cfg.maxIrq) (hs : s.queueOk) :
    (queueTrigger id d s).queueOk := by
  obtain ⟨hc, owed⟩ := hs
  refine ⟨hc, fun q hq => ?_⟩
  obtain old | new := List.mem_append.1 hq
  · exact owed q old
  · rwa [List.mem_singleton.1 new]

/-- The id of a DMA channel names a line that exists; so does the 0 of a channel beyond the last
(notes/assumptions/12.md). -/
theorem dmaIrq_lt {c : Cfg} (hc : c.idsOk = true) (ch : Nat) : (c.dmaIrq.getD ch 0).toNat < c.maxIrq := by
  have os : c.osTimerIrq.toNat < c.maxIrq := lt_maxIrq_of_idsOk hc (by simp [Cfg.irqIds])
  rw [List.getD_eq_getElem?_getD]
  cases entry : c.dmaIrq[ch]? with
  | none => exact Nat.zero_lt_of_lt os
  | some id =>
    exact lt_maxIrq_of_idsOk hc (List.mem_append_left _ (List.mem_append_right _ (List.mem_of_getElem? entry)))

theorem dmaRun_queueOk {s : State} (ch : Nat) (hs : s.queueOk) : (dmaRun ch s).queueOk :=
  queueTrigger_queueOk (s := s.withMem _) (dmaIrq_lt hs.1 ch) hs

theorem edmacIrq_mem {c : Cfg} {ch : Nat} {id : Word} (h : edmacIrq c ch = some id) : id ∈ c.irqIds := by
  obtain ⟨x, hx, irq⟩ := Option.bind_eq_some_iff.1 h
  exact List.mem_append_right _ (List.mem_filterMap.2 ⟨x, List.mem_of_getElem? hx, irq⟩)

theorem sdTryIrq_queueOk {s : State} (hs : s.queueOk) : (sdTryIrq s).queueOk := by
  obtain e | ⟨-, -, e⟩ := sdTryIrq_cases s
  · rwa [e]
  · rw [e]
    exact queueOk_congr (s := queueTrigger s.cfg.sdIrq 0 s) rfl rfl
      (queueTrigger_queueOk (lt_maxIrq_of_idsOk hs.1 (by simp [Cfg.irqIds])) hs)

/-- A completion signal of the IDE abstraction owes a trigger of the CF line (R281). -/
theorem queueOk_of_ideSignal {s t : State} (hs : s.queueOk) (h : IdeSignal s t) : t.queueOk := by
  obtain ⟨e, rfl | rfl⟩ := h
  · exact hs
  · exact queueTrigger_queueOk (s := (s.withEnv e).withCf _) (lt_maxIrq_of_idsOk hs.1 (by simp [Cfg.irqIds])) hs

theorem exec_queueOk {i : Instr} {s t : State} (h : exec i s = .next t) (hs : s.queueOk) : t.queueOk := by
  cases i with
  | dmaStart ch v =>
    simp only [exec, execDmaStart] at h
    split at h
    · exact queueOk_ofParts.of_wrote (dmaRun_queueOk ch hs) h
    · exact queueOk_ofParts.of_wrote hs h
  | edmStart ch v =>
    simp only [exec, execEdmStart] at h
    split at h
    · split at h
      · cases h
        exact hs
      · rename_i id entry
        have started : (modEdmac ch (edmacStarted (resolveConn s ch)) s).queueOk := hs
        have line : id.toNat < s.cfg.maxIrq := lt_maxIrq_of_idsOk hs.1 (edmacIrq_mem entry)
        exact queueOk_ofParts.of_wrote (queueTrigger_queueOk (s := modEdmac ch _ s) line started) h
    · exact queueOk_ofParts.of_wrote hs h
  | sdDmactrlW v =>
    have data := (SameBut.withSd { s.sd with dmaEnabled := controlBit v } s).trans (.sdTryData _)
    exact queueOk_ofParts.of_wrote
      (sdTryIrq_queueOk (queueOk_congr (data .cfg (by simp)) (data .queue (by simp)) hs)) h
  | sdIssue v =>
    simp only [exec, execSdIssue] at h
    split at h
    · have data := (SameBut.sdCommand s).trans (.sdTryData _)
      exact queueOk_ofParts.of_wrote
        (sdTryIrq_queueOk (queueOk_congr (data .cfg (by simp)) (data .queue (by simp)) hs)) h
    · exact queueOk_ofParts.of_wrote hs h
  | sdIrqenW v =>
    have stored : (s.withSd { s.sd with irqEn := controlBit v }).queueOk := hs
    exact queueOk_ofParts.of_wrote (sdTryIrq_queueOk stored) h
  | cfAtaR off =>
    have asked : (ideRead off s).2.queueOk := queueOk_ofParts s _ (.ideRead off s) hs
    exact queueOk_ofParts.of_answer (queueOk_of_ideSignal asked (afterIde_cases _)) h
  | cfAtaW off v =>
    have forwarded : (emit (.ideWrite off v) s).queueOk := hs
    exact queueOk_ofParts.of_wrote (queueOk_of_ideSignal forwarded (afterIde_cases _)) h
  | cfIdeDone =>
    cases h
    exact queueOk_of_ideSignal hs (ideCompleted_cases s)
  | _ => exact queueOk_congr (exec_cfg h) (exec_same .queue h rfl) hs

/-- An owed trigger that runs is owed no longer; the others stay owed (R83). -/
theorem owed_queueOk {s : State} {q : TriggerCall} {rest : List TriggerCall} (hq : s.agents.cpuQueue = q :: rest)
    (hs : s.queueOk) : (trigger q.id q.delay (s.withAgents { s.agents with cpuQueue := rest })).queueOk := by
  obtain ⟨hc, owed⟩ := hs
  refine queueOk_congr (s := s.withAgents { s.agents with cpuQueue := rest }) (trigger_cfg ..) (by rw [trigger_agents])
    ⟨hc, fun x hx => owed x ?_⟩
  rw [hq]
  exact List.mem_cons_of_mem q hx

/-- Settles O16: three invariants, each kept by every operation and every owed trigger. -/
theorem controllersStaySound : Obligations.ControllersStaySound := fun _ _ h =>
  ⟨sdOk_ofParts.step (fun _ _ _ => exec_sdOk)
      (fun q _ _ _ => sdOk_of_same (trigger_cfg q.id q.delay _) (trigger_sd ..)) h,
    cfOk_ofParts.step (fun _ _ _ => exec_cfOk)
      (fun q rest s _ hs => cfOk_congr (by rw [trigger_cf]; rfl) hs) h,
    queueOk_ofParts.step (fun _ _ _ => exec_queueOk) (fun _ _ _ => owed_queueOk) h⟩

end Sys2Proof.Proofs

namespace Sys2Proof.Proofs

open Sys2Proof.Machine

/-! ## The conditions of a configuration, written out (O18) -/

theorem wf_iff (c : Cfg) :
    c.wf = true ↔ handlersOrdered c.handlers = true ∧ c.idsOk = true ∧ c.timersOk = true ∧ c.enginesOk = true ∧
      c.sdOk = true ∧ c.flashOk = true ∧ c.flashHandlersOk = true ∧ c.planesOk = true ∧
      addrMapRising c.addrMap = true ∧ c.namesOk = true ∧ c.windowsOk = true := by
  simp only [Cfg.wf, Bool.and_eq_true, and_assoc]

theorem idsOk_iff (c : Cfg) :
    c.idsOk = true ↔ ∀ id, id ∈ [c.osTimerIrq, c.hptIrq, c.sdIrq, c.cfIrq, c.cfDmaIrq] ∨ id ∈ c.dmaIrq ∨
      (∃ x ∈ c.edmac, x.irq = some id) → id.toNat < c.maxIrq := by
  simp only [Cfg.idsOk, Cfg.irqIds, List.all_eq_true, decide_eq_true_eq, List.mem_append, List.mem_filterMap, or_assoc]

theorem enginesOk_iff (c : Cfg) :
    c.enginesOk = true ↔ 1 ≤ c.dmaK ∧ 1 ≤ c.dmaBlock ∧ 24 ≤ c.nEdmac ∧ 1 ≤ c.cfSliceWords ∧
      c.cfDmaWriteCmd ≠ 0x39 ∧ c.cfAtaBase.toNat + c.cfStatusOff ≤ c.cfAtaLast.toNat := by
  simp only [Cfg.enginesOk, Bool.and_eq_true, decide_eq_true_eq, and_assoc]
  rfl

theorem sdBitsOk_iff (c : Cfg) :
    c.sdOk = true ↔ [c.sdStDone, c.sdStData, c.sdStErr].Nodup ∧
      ∀ i ∈ [c.sdStDone, c.sdStData, c.sdStErr], i ≤ 31 := by
  simp only [Cfg.sdOk, Bool.and_eq_true, decide_eq_true_eq, List.nodup_cons, List.mem_cons, List.not_mem_nil, or_false,
    not_or, List.nodup_nil, not_false_eq_true, and_true, forall_eq_or_imp, forall_eq, and_assoc, ne_eq]

theorem integerRatio_iff (x y : Nat) : integerRatio x y = true ↔ y ∣ x ∨ x ∣ y := by
  simp only [integerRatio, Bool.or_eq_true, decide_eq_true_eq, Nat.dvd_iff_mod_eq_zero]

theorem planesOk_iff (c : Cfg) :
    c.planesOk = true ↔ c.bmpW ≤ c.bmpPitch ∧ c.yuvW % 2 = 0 ∧ 2 * c.yuvW ≤ c.yuvPitch ∧
      (c.yuvW ∣ c.bmpW ∨ c.bmpW ∣ c.yuvW) ∧ (c.yuvH ∣ c.bmpH ∨ c.bmpH ∣ c.yuvH) ∧
      (∀ i ∈ [c.yuvLayout.u, c.yuvLayout.y0, c.yuvLayout.v, c.yuvLayout.y1], i < 4) ∧
      [c.yuvLayout.u, c.yuvLayout.y0, c.yuvLayout.v, c.yuvLayout.y1].Nodup := by
  simp only [Cfg.planesOk, YuvLayout.wf, integerRatio_iff, Bool.and_eq_true, decide_eq_true_eq, List.all_eq_true,
    and_assoc]

/-! ### Windows -/

/-- A window as a first address and a size. -/
def windowPair (x : Window) : Nat × Nat := (x.first, x.size)

section
variable {share : Nat × Nat → Nat × Nat → Prop}
  (hshare : ∀ x y, share x y ↔ ∃ a, x.1 ≤ a ∧ a < x.1 + x.2 ∧ y.1 ≤ a ∧ a < y.1 + y.2)
include hshare

theorem disjoint_iff_not_share (x y : Window) : x.disjoint y = true ↔ ¬ share (windowPair x) (windowPair y) := by
  rw [Laws.Window.disjoint_iff, hshare, not_exists]
  exact forall_congr' fun a => ⟨fun h k => h k.1 k.2.1 k.2.2, fun h k l m => h ⟨k, l, m⟩⟩

theorem windowsOk_iff (c : Cfg) :
    c.windowsOk = true ↔ (∀ x ∈ c.windows.map windowPair, x.1 + x.2 ≤ 2 ^ 32) ∧
      (c.windows.map windowPair).Pairwise (fun x y => ¬ share x y) ∧
      ∀ e ∈ c.addrMap, ∀ x ∈ c.windows.map windowPair, ¬ share x (e.2.toNat, 1) := by
  simp only [Cfg.windowsOk, Bool.and_eq_true, List.all_eq_true, decide_eq_true_eq, Laws.windowsDisjoint_iff,
    List.pairwise_map, List.forall_mem_map, disjoint_iff_not_share hshare, and_assoc]
  rfl

end

/-! ### Flash -/

/-- With the windows disjoint and in the address space, what is left of the bank conditions is their sizes and
images. -/
theorem flashOk_iff {c : Cfg} (hw : c.windowsOk = true) :
    c.flashOk = true ↔ c.flashBusyReads ≤ 16 ∧ 2 ≤ c.flashBlockSize ∧ c.flashBlockSize % 2 = 0 ∧
      ∀ x ∈ c.banks, x.size % 2 = 0 ∧ cellsCanonical (some 0xFF) x.size x.image = true := by
  simp only [Cfg.windowsOk, Bool.and_eq_true, List.all_eq_true, decide_eq_true_eq, Laws.windowsDisjoint_iff] at hw
  obtain ⟨⟨inside, disjoint⟩, -⟩ := hw
  have banks : c.banks.map BankCfg.window <:+ c.windows := List.suffix_append _ _
  have fits : ∀ x ∈ c.banks, x.base.toNat + x.size ≤ 2 ^ 32 := fun x hx =>
    inside x.window (banks.mem (List.mem_map_of_mem hx))
  have apart := disjoint.sublist banks.sublist
  simp only [Cfg.flashOk, Bool.and_eq_true, List.all_eq_true, decide_eq_true_eq, Laws.windowsDisjoint_iff, apart,
    and_true, BankCfg.wf, and_assoc]
  exact and_congr_right fun _ => and_congr_right fun _ => and_congr_right fun _ =>
    forall₂_congr fun x hx => and_congr_right fun _ => and_iff_right (fits x hx)

/-- The handlers of the banks (R310), bank by bank. -/
theorem flashHandlersOk_iff_banks (c : Cfg) :
    c.flashHandlersOk = true ↔
      (∀ b x, c.banks[b]? = some x → ∃ h, c.handlers.filter (fun h => h.kind == .flash b) = [h] ∧
        h.lo.toNat = x.base.toNat ∧ h.hi.toNat + 1 = x.base.toNat + x.size) ∧
      ∀ h ∈ c.handlers, ∀ b, h.kind = .flash b → b < c.banks.length := by
  rw [Laws.flashHandlersOk_iff]
  refine and_congr_left' (forall_congr' fun b => ?_)
  constructor
  · intro h x hx
    have := h (List.getElem?_eq_some_iff.1 hx).1
    simpa only [Cfg.bankBase, Cfg.bankSize, hx, Option.map_some, Option.getD_some] using this
  · intro h hb
    have hx : c.banks[b]? = some c.banks[b] := List.getElem?_eq_getElem hb
    simpa only [Cfg.bankBase, Cfg.bankSize, hx, Option.map_some, Option.getD_some] using h _ hx

/-! ## The machine right after init (O17, O18) -/

theorem bankAt_init (c : Cfg) (b : Nat) :
    bankAt (State.init c) b = ⟨.read, 0, (c.banks[b]?.map (·.image)).getD []⟩ := by
  simp only [bankAt, State.init, List.getD_eq_getElem?_getD, List.getElem?_map]
  cases c.banks[b]? <;> rfl

/-- The loaded image of every bank fits it, canonically (R67). -/
theorem image_wf {c : Cfg} (hf : c.flashOk = true) (b : Nat) :
    Memory.wf (some Config.erasedByte) (c.bankSize b) ((c.banks[b]?.map (·.image)).getD []) = true := by
  simp only [Cfg.flashOk, Bool.and_eq_true, List.all_eq_true, BankCfg.wf] at hf
  obtain ⟨⟨-, banks⟩, -⟩ := hf
  cases hx : c.banks[b]? with
  | none => exact memory_wf_nil _ _
  | some x =>
    rw [Cfg.bankSize, hx]
    exact (banks x (List.mem_of_getElem? hx)).2

/-- The machine right after init meets every invariant, where the timers, the banks and the interrupt ids of its
configuration are in order (R433). -/
theorem init_sound {c : Cfg} (ht : c.timersOk = true) (hf : c.flashOk = true) (hi : c.idsOk = true) :
    (State.init c).sound := by
  obtain ⟨-, -, pos, -, -⟩ := (timersOk_iff c).1 ht
  have zero : onClock c 0 := ⟨pos, Nat.zero_mod _⟩
  refine ⟨⟨memory_wf_nil _ _, fun b => ?_⟩, ⟨List.length_replicate, nofun, nofun⟩, ⟨ht, zero, fun ch hch => ?_⟩,
    ⟨hf, fun x hx => ?_⟩, ?_, ⟨nofun, BitVec.zero_and⟩, nofun, hi, nofun⟩
  · rw [bankAt_init]
    exact image_wf hf b
  · rw [List.eq_of_mem_replicate hch]
    exact zero
  · obtain ⟨y, -, rfl⟩ := List.mem_map.1 hx
    exact bank_ok_read rfl rfl
  · refine ⟨List.length_replicate, List.length_replicate, List.length_replicate, List.length_replicate,
      List.length_replicate, List.length_replicate, List.length_replicate, List.length_map _, List.length_replicate,
      List.length_replicate, nofun, nofun, fun h => absurd rfl h⟩

/-- Settles O17: `TC` meets the conditions that `init_sound` asks for. -/
theorem resetIsSound : Obligations.ResetIsSound := ⟨init_sound (by decide) (by decide) (by decide), rfl⟩

/-- The elements of the machine right after init have the initial values of the spec (R45). -/
theorem init_values (c : Cfg) :
    (∀ id, lineAt (State.init c) id = ⟨false, 0⟩) ∧ (∀ n, tmrAt (State.init c) n = ⟨false, 0, 0⟩) ∧
      (∀ n, hptAt (State.init c) n = ⟨false, 0, false⟩) ∧ (∀ ch, dmaAt (State.init c) ch = ⟨0, 0, 0⟩) ∧
      ∀ ch, edmacAt (State.init c) ch = ⟨EdmacRegs.reset, none, 0⟩ := by
  simp only [lineAt, tmrAt, hptAt, dmaAt, edmacAt, State.init, List.getD_eq_getElem?_getD,
    List.getElem?_getD_replicate_default_eq, implies_true, and_self]

/-- An accepted configuration makes the machine right after init (R432). -/
theorem initOf_eq_some {c : Cfg} {s : State} : State.initOf c = some s ↔ c.wf = true ∧ State.init c = s := by
  simp [State.initOf]

/-- Settles O18: each check of `Cfg.wf` says its conditions, and the machine made is the one right after init. -/
theorem initIsSound : Obligations.InitIsSound := by
  intro c ws share hws hshare
  have windows : ws = c.windows.map windowPair := by
    simp [hws, Cfg.windows, windowPair, Cfg.ataWindow, ChswCfg.window, BankCfg.window, Function.comp_def]
  have made : (State.initOf c).isSome = true ↔ c.wf = true := by
    simp [Option.isSome_iff_exists, initOf_eq_some]
  refine ⟨?_, fun s hs => ?_⟩
  · rw [made, wf_iff, windows]
    constructor
    · rintro ⟨handlers, ids, timers, engines, sd, flash, banks, planes, rising, names, wins⟩
      obtain ⟨os, step, pos, period, fits⟩ := (timersOk_iff c).1 timers
      obtain ⟨k, block, edmac, slice, command, status⟩ := (enginesOk_iff c).1 engines
      obtain ⟨reads, size, even, images⟩ := (flashOk_iff wins).1 flash
      obtain ⟨bmp, yuvEven, yuv, width, height, below, places⟩ := (planesOk_iff c).1 planes
      obtain ⟨inside, apart, named⟩ := (windowsOk_iff hshare c).1 wins
      obtain ⟨once, all⟩ := (Laws.namesOk_iff c).1 names
      obtain ⟨one, other⟩ := (flashHandlersOk_iff_banks c).1 banks
      obtain ⟨bits, bound⟩ := (sdBitsOk_iff c).1 sd
      exact ⟨(Laws.handlersOrdered_iff _).1 handlers, (Laws.addrMapRising_iff _).1 rising, once, all, apart, inside,
        named, (idsOk_iff c).1 ids, os, edmac, step, pos, period, fits, k, block, slice, reads, images, size, even, one,
        other, bits, bound, command, status, bmp, yuv, yuvEven, width, height, places, below⟩
    · rintro ⟨handlers, rising, once, all, apart, inside, named, ids, os, edmac, step, pos, period, fits, k, block,
        slice, reads, images, size, even, one, other, bits, bound, command, status, bmp, yuv, yuvEven, width, height,
        places, below⟩
      have wins := (windowsOk_iff hshare c).2 ⟨inside, apart, named⟩
      exact ⟨(Laws.handlersOrdered_iff _).2 handlers, (idsOk_iff c).2 ids,
        (timersOk_iff c).2 ⟨os, step, pos, period, fits⟩,
        (enginesOk_iff c).2 ⟨k, block, edmac, slice, command, status⟩, (sdBitsOk_iff c).2 ⟨bits, bound⟩,
        (flashOk_iff wins).2 ⟨reads, size, even, images⟩, (flashHandlersOk_iff_banks c).2 ⟨one, other⟩,
        (planesOk_iff c).2 ⟨bmp, yuvEven, yuv, width, height, below, places⟩, (Laws.addrMapRising_iff _).2 rising,
        (Laws.namesOk_iff c).2 ⟨once, all⟩, wins⟩
  · obtain ⟨wf, rfl⟩ := initOf_eq_some.1 hs
    obtain ⟨-, ids, timers, -, -, flash, -⟩ := (wf_iff c).1 wf
    obtain ⟨lines, tmr, hpt, dma, edmac⟩ := init_values c
    refine ⟨rfl, init_sound timers flash ids, rfl, rfl, rfl, rfl, lines, tmr, hpt, dma, edmac,
      fun i hi => by simp [State.init, hi], fun ch hch => by simp [State.init, hch], rfl, rfl,
      fun b => by simp [bankAt_init], fun b x hx => by simp [bankAt_init, hx], rfl, rfl, rfl, rfl, rfl,
      fun i hi => List.getElem?_replicate_of_lt hi, fun i hi => List.getElem?_replicate_of_lt hi, rfl, rfl⟩

end Sys2Proof.Proofs

namespace Sys2Proof.Proofs

open Sys2Proof.Machine

/-! ## The next move (O8, O9) -/

theorem nextEvent_cons {s : State} {e : Event} {rest : List Event} (h : s.schedule = e :: rest) : nextEvent s = e := by
  simp [nextEvent, h]

theorem popEvent_cons {s : State} {e : Event} {rest : List Event} (h : s.schedule = e :: rest) :
    popEvent s = s.withSchedule rest := by simp [popEvent, h]

theorem popEvent_nil {s : State} (h : s.schedule = []) : popEvent s = s := by
  unfold popEvent
  rw [h, List.tail_nil, ← h]
  rfl

/-- With nothing scheduled and a call owed, the next move is that call (R83). -/
theorem nextEvent_owed {s : State} {q : TriggerCall} {rest : List TriggerCall} (h : s.schedule = [])
    (hq : s.agents.cpuQueue = q :: rest) : nextEvent s = .cpuTrigger := by
  simp [nextEvent, defaultEvent, h, hq]

theorem step_cpuTrigger {s : State} (hf : s.fatal = none) (he : nextEvent s = .cpuTrigger) :
    step s = triggerStep (popEvent s) := by
  simp only [step, hf, he]

theorem step_request {s : State} {bytes : List Byte} {i : Instr} (hf : s.fatal = none)
    (he : nextEvent s = .request bytes) (hd : decode s.view bytes = .ok i) : step s = runInstr i s := by
  simp only [step, hf, he, hd]

/-- An operation whose agent can move runs on the machine with its request taken off the schedule (R83, R84). -/
theorem runInstr_able {i : Instr} {s : State}
    (h : agentOf i = .cpu → s.agents.cpuQueue = [] ∧ s.agents.cpuHalted = false) :
    runInstr i s = exec i (popEvent s) := by
  unfold runInstr
  split
  · rename_i cpu
    obtain ⟨queue, running⟩ := h cpu
    simp [queue, running]
  · rfl

/-- A new access that finds a call owed lets it run first (R83). -/
theorem runInstr_owed {i : Instr} {s : State} {q : TriggerCall} {rest : List TriggerCall} (hi : agentOf i = .cpu)
    (hq : s.agents.cpuQueue = q :: rest) : runInstr i s = triggerStep s := by
  simp [runInstr, hi, hq]

/-- A trigger of a line that exists is never the fatal stop (R142). -/
theorem trigger_fatal_of_lt {id d : Word} {s : State} (h : id.toNat < s.cfg.maxIrq) :
    (trigger id d s).fatal = s.fatal := by
  obtain ⟨beyond, -⟩ | ⟨-, -, -, -, e⟩ | ⟨-, -, e⟩ := trigger_cases id d s
  · omega
  · rw [e, deliver_fatal]
  · rw [e, setSched_fatal]

/-- The trigger step of a call that names a line (R83). -/
theorem triggerStep_owed {s : State} {q : TriggerCall} {rest : List TriggerCall} (hf : s.fatal = none)
    (hq : s.agents.cpuQueue = q :: rest) (hid : q.id.toNat < s.cfg.maxIrq) :
    triggerStep s = .next (trigger q.id q.delay (s.withAgents { s.agents with cpuQueue := rest })) := by
  rw [triggerStep_cons hq, orFatal_none]
  rw [trigger_fatal_of_lt (by simpa using hid)]
  exact hf

/-- Settles O8: the request is decoded, and its agent is able to move. -/
theorem stepRunsDecoded : Obligations.StepRunsDecoded := by
  intro s bytes rest i hf hs hd able
  rw [step_request hf (nextEvent_cons hs) hd, runInstr_able able, popEvent_cons hs]
  rfl

/-- Settles O9: in each of the three cases the move made is the trigger step. -/
theorem owedTriggersRunFirst : Obligations.OwedTriggersRunFirst := by
  intro s q rest hf hq hid
  refine ⟨fun events hs => ?_, fun hs => ?_, fun bytes events i hs hd hi => ?_⟩
  · rw [step_cpuTrigger hf (nextEvent_cons hs), popEvent_cons hs]
    exact triggerStep_owed (s := s.withSchedule events) hf hq hid
  · rw [step_cpuTrigger hf (nextEvent_owed hs hq), popEvent_nil hs]
    exact triggerStep_owed hf hq hid
  · rw [step_request hf (nextEvent_cons hs) hd, runInstr_owed hi hq]
    exact triggerStep_owed hf hq hid

/-! ## Which operations store, and which change the CF controller -/

/-- The four kinds of operation that R82 and R61 tell apart. -/
inductive Kind where
  /-- a change of the CF controller by an access or by the IDE abstraction -/
  | cf
  /-- the CF sub-step of the ticker, which changes the CF controller and stores -/
  | slice
  /-- a DMA start or an SD data phase, which stores -/
  | transfer
  | other
  deriving DecidableEq

/-- The kind of an operation; that of a tick is given by the sub-step that comes next (R370). -/
def kindOf (s : State) : Instr → Kind
  | .cfAtaR _ | .cfAtaW _ _ | .cfStatusR | .cfIdeDone | .cfDmaregW _ _ | .cfDmaenW _ | .cfDmaReq _ => .cf
  | .cfDmaSlice => .slice
  | .tick => if s.agents.tickPhase = .cf then .slice else .other
  | .dmaStart _ _ | .sdDmactrlW _ | .sdIssue _ => .transfer
  | _ => .other

theorem kindOf_tick (s : State) : kindOf s .tick = if s.agents.tickPhase = .cf then .slice else .other := rfl

theorem kindOf_tick_eq_slice {s : State} : kindOf s .tick = .slice ↔ s.agents.tickPhase = .cf := by
  rw [kindOf_tick]
  split <;> simp_all

theorem kindOf_tick_eq_other {s : State} : kindOf s .tick = .other ↔ s.agents.tickPhase ≠ .cf := by
  rw [kindOf_tick]
  split <;> simp_all

theorem kindOf_tick_ne {s : State} {k : Kind} (hk : k ∉ [.slice, .other]) : kindOf s .tick ≠ k := by
  rw [kindOf_tick]
  rintro rfl
  split at hk <;> simp at hk

/-- The CF controller and the bytes written to guest memory: what only the first three kinds change. -/
def cfAndCells (s : State) : CfState × Memory := (s.cf, s.mem.cells)

/-! ### Shared operations -/

theorem cfAndCells_orFatal {s t : State} (h : cfAndCells t = cfAndCells s) :
    cfAndCells (orFatal s t) = cfAndCells s := by
  obtain e | ⟨r, e⟩ := orFatal_cases s t
  · rwa [e]
  · rw [e]
    rfl

theorem cfAndCells_of_tickerStep {f : State → State} {s t : State} (hf : cfAndCells (f s) = cfAndCells s)
    (h : tickerStep f s = .next t) : cfAndCells t = cfAndCells s := by
  rw [tickerStep_eq_next] at h
  obtain ⟨-, -, rfl⟩ := h
  exact cfAndCells_orFatal hf

@[simp] theorem cfAndCells_setSched (id : Nat) (d : Word) (s : State) :
    cfAndCells (setSched id d s) = cfAndCells s := rfl

@[simp] theorem cfAndCells_deliver (id : Nat) (s : State) : cfAndCells (deliver id s) = cfAndCells s := by
  simp [cfAndCells]

@[simp] theorem cfAndCells_trigger (id d : Word) (s : State) : cfAndCells (trigger id d s) = cfAndCells s := by
  simp [cfAndCells]

theorem cfAndCells_walkLine (s : State) (id : Nat) : cfAndCells (walkLine s id) = cfAndCells s := by
  obtain ⟨-, e⟩ | ⟨-, -, -, e⟩ | ⟨-, -, e⟩ := walkLine_cases s id
  all_goals simp [e]

/-- A loop over a list leaves what each round of it leaves. -/
theorem cfAndCells_foldl {α : Type} {f : State → α → State} (hf : ∀ s a, cfAndCells (f s a) = cfAndCells s)
    (l : List α) (s : State) : cfAndCells (l.foldl f s) = cfAndCells s :=
  foldl_keeps (P := fun u => cfAndCells u = cfAndCells s) (fun u a hu => (hf u a).trans hu) l rfl

theorem cfAndCells_tickWalk (s : State) : cfAndCells (tickWalk s) = cfAndCells s :=
  cfAndCells_foldl cfAndCells_walkLine _ s

theorem cfAndCells_raiseHpt (fired : Bool) (s : State) : cfAndCells (raiseHpt fired s) = cfAndCells s := by
  unfold raiseHpt
  split <;> simp

theorem cfAndCells_timersPhase (s : State) : cfAndCells (timersPhase s) = cfAndCells s :=
  (cfAndCells_raiseHpt _ (tickWalk (hptCompare (timersAdvance s)))).trans
    (cfAndCells_tickWalk (hptCompare (timersAdvance s)))

theorem cfAndCells_cfIrqPhase (s : State) : cfAndCells (cfIrqPhase s) = cfAndCells s :=
  cfAndCells_trigger s.cfg.cfDmaIrq 0 s

theorem cfAndCells_tickPhaseStep {s : State} (h : s.agents.tickPhase ≠ .cf) :
    cfAndCells (tickPhaseStep s) = cfAndCells s := by
  unfold tickPhaseStep
  split
  · exact cfAndCells_timersPhase s
  · contradiction
  · exact cfAndCells_cfIrqPhase s

theorem cfAndCells_disableLine (s : State) (id : Nat) : cfAndCells (disableLine s id) = cfAndCells s := by
  unfold disableLine
  dsimp only
  split <;> rfl

theorem cfAndCells_sdTryIrq (s : State) : cfAndCells (sdTryIrq s) = cfAndCells s := by
  obtain e | ⟨-, -, e⟩ := sdTryIrq_cases s
  · rw [e]
  · rw [e]
    rfl

theorem cfAndCells_unknownAccess (a : Word) (write : Bool) (v : Word) (s : State) :
    cfAndCells (unknownAccess a write v s) = cfAndCells s := by
  unfold unknownAccess
  dsimp only
  split <;> rfl

theorem cfAndCells_chswReadAssign (sub : ChswSub) (off : Nat) (v : Word) (s : State) :
    cfAndCells (chswReadAssign sub off v s) = cfAndCells s := by
  unfold chswReadAssign
  split
  · rfl
  · split <;> rfl

theorem cfAndCells_chswWriteAssign (sub : ChswSub) (off : Nat) (v : Word) (s : State) :
    cfAndCells (chswWriteAssign sub off v s) = cfAndCells s := by
  unfold chswWriteAssign
  split <;> rfl

/-- A composite reads guest memory, and changes the surface and the display state (R359). -/
theorem cfAndCells_compose (s : State) : cfAndCells (compose s) = cfAndCells s := by
  have resized : (sinkResize s).cf = s.cf := by
    unfold sinkResize
    split <;> rfl
  have blitted (dirty : List Nat) (row : Nat → List Word) (u : State) : (sinkBlit dirty row u).cf = u.cf := by
    unfold sinkBlit
    split <;> rfl
  simp [cfAndCells, compose, blitted, resized]

/-! ### Operations -/

/-- Everything an operation on bank `b` does: it changes that bank and the record of calls, and completes (R310, R329). -/
theorem exec_flashAccess {i : Instr} {b off : Nat} {write : Bool} {v : Word}
    (hi : i.flashAccess = some (b, off, write, v)) (s : State) :
    ∃ f c r, exec i s = .next (((modBank b f s).withCalls c).withRet r) := by
  have read (e : exec i s = flashReadAccess b off s) :
      ∃ f c r, exec i s = .next (((modBank b f s).withCalls c).withRet r) := by
    obtain ⟨f, x, shape⟩ := flashReadAccess_shape b off s
    exact ⟨f, s.calls, some x, e.trans shape⟩
  have cycle (e : exec i s = wrote (flashCycle b off v s)) :
      ∃ f c r, exec i s = .next (((modBank b f s).withCalls c).withRet r) := by
    obtain ⟨f, c, shape⟩ := flashCycle_shape b off v s
    exact ⟨f, c, some 0, by rw [e, shape]; rfl⟩
  cases i with
  | flRead | flBusyRead | flPassR =>
    cases hi
    refine read ?_
    simp only [exec, execFlRead, execFlBusyRead, execFlPassR, flashReadAccess]
    split
    · rename_i row
      simp [row]
    · rfl
  | flUnlock1 | flUnlock2 | flCmdProgram | flCmdErase | flEraseUnlock1 | flEraseUnlock2 | flChipErase | flBlockErase
  | flBypassEraseEntry | flBypassProgramEntry | flBypassChipErase | flBypassBlockErase | flProgramData | flBadCycle
  | flPassW =>
    cases hi
    exact cycle (flashRow_eq fun row => by simp [flashCycle, row])
  | _ => cases hi

theorem onBank_eq_isSome (i : Instr) : onBank i = i.flashAccess.isSome := by
  cases i <;> rfl

theorem exec_onBank_cfAndCells {i : Instr} {s t : State} (hi : onBank i = true) (h : exec i s = .next t) :
    cfAndCells t = cfAndCells s := by
  obtain ⟨⟨b, off, write, v⟩, hi⟩ := Option.isSome_iff_exists.1 (onBank_eq_isSome i ▸ hi)
  obtain ⟨f, c, r, e⟩ := exec_flashAccess hi s
  cases e.symm.trans h
  rfl

/-- An operation of none of the three kinds changes neither the CF controller nor a byte of guest memory. -/
theorem exec_cfAndCells {i : Instr} {s t : State} (hk : kindOf s i = .other) (h : exec i s = .next t) :
    cfAndCells t = cfAndCells s := by
  cases i with
  | cfAtaR | cfAtaW | cfStatusR | cfIdeDone | cfDmaregW | cfDmaenW | cfDmaReq | cfDmaSlice | dmaStart | sdDmactrlW
  | sdIssue => cases hk
  | tick =>
    exact cfAndCells_of_tickerStep (cfAndCells_tickPhaseStep (kindOf_tick_eq_other.1 hk)) h
  | accUnknownR a =>
    cases h
    exact cfAndCells_unknownAccess a false 0 s
  | accUnknownW a v =>
    cases h
    exact cfAndCells_unknownAccess a true v s
  | modelConstR a =>
    simp only [exec, execModelConstR] at h
    split at h <;> cases h <;> rfl
  | icTrigger id d =>
    cases h
    exact cfAndCells_trigger id d s
  | icEnableW v =>
    simp only [exec, execIcEnableW] at h
    split at h <;> cases h <;> rfl
  | icDisableW k v =>
    cases h
    exact cfAndCells_foldl cfAndCells_disableLine _ s
  | icTickWalk => exact cfAndCells_of_tickerStep (cfAndCells_tickWalk s) h
  | cfDmaIrq => exact cfAndCells_of_tickerStep (cfAndCells_cfIrqPhase s) h
  | tmrTick => exact cfAndCells_of_tickerStep (f := timersAdvance) rfl h
  | hptTick => exact cfAndCells_of_tickerStep (f := hptCompare) rfl h
  | tmrCtrlW n v =>
    simp only [exec, execTmrCtrlW] at h
    split at h
    · split at h <;> cases h <;> rfl
    · cases h
      rfl
  | edmStart ch v =>
    simp only [exec, execEdmStart] at h
    split at h
    · split at h <;> cases h <;> rfl
    · cases h
      rfl
  | chswRW second off v =>
    cases h
    exact cfAndCells_chswReadAssign _ off v s
  | chswWW second off v =>
    cases h
    exact cfAndCells_chswWriteAssign _ off v s
  | sdIrqenW v =>
    cases h
    exact cfAndCells_sdTryIrq _
  | sdDmaregW r v | sdDmaregR r | cfDmaregR r => cases r <;> cases h <;> rfl
  | planeAddrW p v | planeAddrR p => cases p <;> cases h <;> rfl
  | dispCompose =>
    cases h
    exact cfAndCells_compose s
  | flRead | flBusyRead | flUnlock1 | flUnlock2 | flCmdProgram | flCmdErase | flEraseUnlock1 | flEraseUnlock2
  | flChipErase | flBlockErase | flBypassEraseEntry | flBypassProgramEntry | flBypassChipErase | flBypassBlockErase
  | flProgramData | flBadCycle | flPassR | flPassW => exact exec_onBank_cfAndCells rfl h
  | _ =>
    cases h
    rfl

/-! ### The CF controller's own operations -/

/-- What an operation of the CF controller that moves no word leaves: the timers and guest memory. -/
def tmrAndMem (s : State) : List TimerChannel × Guest := (s.tmr, s.mem)

theorem tmrAndMem_of_ideSignal {s t : State} (h : IdeSignal s t) : tmrAndMem t = tmrAndMem s := by
  obtain ⟨e, rfl | rfl⟩ := h <;> rfl

theorem tmrAndMem_ideRead (off : Nat) (s : State) : tmrAndMem (ideRead off s).2 = tmrAndMem s := by
  obtain ⟨e, he⟩ := ideRead_snd off s
  rw [he]
  rfl

theorem exec_tmrAndMem {i : Instr} {s t : State} (hk : kindOf s i = .cf) (h : exec i s = .next t) :
    tmrAndMem t = tmrAndMem s := by
  cases i with
  | cfAtaR off =>
    cases h
    exact (tmrAndMem_of_ideSignal (afterIde_cases _)).trans (tmrAndMem_ideRead off s)
  | cfAtaW off v =>
    cases h
    exact tmrAndMem_of_ideSignal (s := emit (.ideWrite off v) s) (t := afterIde _) (afterIde_cases _)
  | cfStatusR =>
    cases h
    exact tmrAndMem_ideRead _ s
  | cfIdeDone =>
    cases h
    exact tmrAndMem_of_ideSignal (ideCompleted_cases s)
  | cfDmaregW r v => cases r <;> cases h <;> rfl
  | cfDmaenW v =>
    cases h
    rfl
  | cfDmaReq v =>
    simp only [exec, execCfDmaReq] at h
    split at h
    · cases h
      rfl
    · split at h
      · cases h
        unfold cfFlag
        dsimp only
        split <;> rfl
      · cases h
        rfl
  | tick => exact absurd hk (kindOf_tick_ne (by decide))
  | _ => cases hk

/-! ### The CF sub-step -/

/-- A tick in the CF phase is the CF sub-step (R370). -/
theorem exec_slice {i : Instr} {s : State} (hk : kindOf s i = .slice) : exec i s = tickerStep cfPhase s := by
  cases i with
  | cfDmaSlice => rfl
  | tick =>
    have phase : s.agents.tickPhase = .cf := kindOf_tick_eq_slice.1 hk
    have same : tickPhaseStep s = cfPhase s := by simp only [tickPhaseStep, phase]
    simp only [exec, execTick, tickerStep, same]
  | _ => cases hk

/-! ## At most one lock group (O19) -/

/-- The interrupt and timer group (R82) is the same in both states. -/
def TimingSame (s t : State) : Prop := t.ic = s.ic ∧ t.clock = s.clock ∧ t.tmr = s.tmr ∧ t.hpt = s.hpt

theorem exec_timing_of_cf {i : Instr} {s t : State} (hk : kindOf s i = .cf) (h : exec i s = .next t) :
    TimingSame s t := by
  have untouched : (touches i).contains .ic = false ∧ (touches i).contains .timing = false := by
    cases i with
    | tick => exact absurd hk (kindOf_tick_ne (by decide))
    | cfAtaR | cfAtaW | cfStatusR | cfIdeDone | cfDmaregW | cfDmaenW | cfDmaReq => exact ⟨rfl, rfl⟩
    | _ => cases hk
  obtain ⟨clock, hpt⟩ := exec_same .timing h untouched.2
  exact ⟨exec_same .ic h untouched.1, clock, congrArg Prod.fst (exec_tmrAndMem hk h), hpt⟩

/-- A CF sub-step changes the CF controller, guest memory and the backend's side (R287, R370). -/
theorem timing_cfPhase (s : State) : TimingSame s (cfPhase s) := by
  unfold cfPhase cfSlice
  split
  · simp [TimingSame]
  · rename_i p hp
    obtain ⟨m, e, c, loop⟩ := cfSliceLoop_shape s.cfg.cfSliceWords p s
    dsimp only
    split <;> simp [TimingSame, loop]

theorem timing_orFatal {s t : State} (h : TimingSame s t) : TimingSame s (orFatal s t) := by
  obtain e | ⟨r, e⟩ := orFatal_cases s t
  · rwa [e]
  · rw [e]
    exact ⟨rfl, rfl, rfl, rfl⟩

theorem exec_timing_of_slice {i : Instr} {s t : State} (hk : kindOf s i = .slice) (h : exec i s = .next t) :
    TimingSame s t := by
  rw [exec_slice hk, tickerStep_eq_next] at h
  obtain ⟨-, -, rfl⟩ := h
  exact timing_orFatal (timing_cfPhase s)

theorem sdTryData_cf (s : State) : (sdTryData s).cf = s.cf := by
  obtain e | ⟨o, -, -, ⟨-, bs, env, -, e⟩ | ⟨-, c, e⟩⟩ := sdTryData_cases s <;> rw [e] <;> rfl

theorem sdCommand_cf (s : State) : (sdCommand s).cf = s.cf := by
  obtain ⟨c, e, r, shape⟩ := sdCommand_shape s
  rw [shape]
  rfl

theorem exec_cf_of_transfer {i : Instr} {s t : State} (hk : kindOf s i = .transfer) (h : exec i s = .next t) :
    t.cf = s.cf := by
  have handOver (u : State) : (sdTryIrq u).cf = u.cf := congrArg Prod.fst (cfAndCells_sdTryIrq u)
  cases i with
  | dmaStart c v =>
    simp only [exec, execDmaStart] at h
    split at h <;> cases h <;> rfl
  | sdDmactrlW v =>
    cases h
    exact (handOver _).trans (sdTryData_cf _)
  | sdIssue v =>
    simp only [exec, execSdIssue] at h
    split at h
    · cases h
      exact ((handOver _).trans (sdTryData_cf _)).trans (sdCommand_cf s)
    · cases h
      rfl
  | tick => exact absurd hk (kindOf_tick_ne (by decide))
  | _ => cases hk

/-- An operation leaves the CF group or the interrupt and timer group as it is, by its kind. -/
theorem exec_lockGroup {i : Instr} {s t : State} (h : exec i s = .next t) : t.cf = s.cf ∨ TimingSame s t := by
  cases hk : kindOf s i with
  | cf => exact .inr (exec_timing_of_cf hk h)
  | slice => exact .inr (exec_timing_of_slice hk h)
  | transfer => exact .inl (exec_cf_of_transfer hk h)
  | other => exact .inl (congrArg Prod.fst (exec_cfAndCells hk h))

/-- Neither an owed trigger nor its fatal stop changes the CF controller or a byte of guest memory (R83, R403). -/
theorem cfAndCells_owed (q : TriggerCall) (rest : List TriggerCall) (u : State) :
    cfAndCells (orFatal u (trigger q.id q.delay (u.withAgents { u.agents with cpuQueue := rest }))) = cfAndCells u :=
  cfAndCells_orFatal (cfAndCells_trigger _ _ _)

/-- Settles O19: each kind of operation keeps one of the two groups, and an owed trigger keeps the CF group. -/
theorem oneLockGroupPerStep : Obligations.OneLockGroupPerStep := by
  intro s t h
  obtain ⟨-, ⟨bytes, i, -, -, -, he⟩ | ⟨q, rest, u, -, hu, rfl⟩ | ⟨addr, bytes, -, rfl⟩ | ⟨pc, -, rfl⟩⟩ :=
    step_cases h
  · exact exec_lockGroup (s := popEvent s) he
  · have kept := congrArg Prod.fst (cfAndCells_owed q rest u)
    obtain rfl | rfl := hu <;> exact .inl kept
  · exact .inl rfl
  · exact .inl rfl

/-! ## Only the transfers store (O23) -/

theorem guestByte_congr {g h : Guest} (e : h.cells = g.cells) (x : Nat) : guestByte h x = guestByte g x := by
  rw [guestByte, guestByte, e]

/-- An operation that is no transfer and no CF sub-step stores no byte. -/
theorem exec_cells {i : Instr} {s t : State} (hs : kindOf s i ≠ .slice) (ht : kindOf s i ≠ .transfer)
    (h : exec i s = .next t) : t.mem.cells = s.mem.cells := by
  cases hk : kindOf s i with
  | cf =>
    have mem : t.mem = s.mem := congrArg Prod.snd (exec_tmrAndMem hk h)
    rw [mem]
  | slice => exact absurd hk hs
  | transfer => exact absurd hk ht
  | other => exact congrArg Prod.snd (exec_cfAndCells hk h)

theorem kindOf_eq_slice {s : State} {i : Instr} (hk : kindOf s i = .slice) :
    i = .cfDmaSlice ∨ (i = .tick ∧ s.agents.tickPhase = .cf) := by
  cases i with
  | cfDmaSlice => exact .inl rfl
  | tick => exact .inr ⟨rfl, kindOf_tick_eq_slice.1 hk⟩
  | _ => cases hk

theorem kindOf_eq_transfer {s : State} {i : Instr} (hk : kindOf s i = .transfer) :
    (∃ ch v, i = .dmaStart ch v) ∨ (∃ v, i = .sdIssue v) ∨ ∃ v, i = .sdDmactrlW v := by
  cases i with
  | dmaStart ch v => exact .inl ⟨ch, v, rfl⟩
  | sdIssue v => exact .inr (.inl ⟨v, rfl⟩)
  | sdDmactrlW v => exact .inr (.inr ⟨v, rfl⟩)
  | tick => exact absurd hk (kindOf_tick_ne (by decide))
  | _ => cases hk

/-- A change of one bank leaves every other (R310). -/
theorem bankAt_modBank_ne {b b' : Nat} (hb : b' ≠ b) (f : FlashBank → FlashBank) (s : State) :
    bankAt (modBank b f s) b' = bankAt s b' := by
  simp [bankAt, modBank, List.getD_eq_getElem?_getD, hb.symm]

/-- Settles O23: by the kind of the operation, and by the one bank that an operation on a bank changes. -/
theorem onlyTransfersStore : Obligations.OnlyTransfersStore := by
  intro i s t h
  refine ⟨fun dma issue ctrl slice tick x => ?_, fun b off write v hi => ?_, fun hi => ?_⟩
  · refine guestByte_congr (exec_cells (fun hk => ?_) (fun hk => ?_) h) x
    · exact (kindOf_eq_slice hk).elim slice tick
    · obtain ⟨ch, v, e⟩ | ⟨v, e⟩ | ⟨v, e⟩ := kindOf_eq_transfer hk
      · exact dma ch v e
      · exact issue v e
      · exact ctrl v e
  · obtain ⟨f, c, r, e⟩ := exec_flashAccess hi s
    cases e.symm.trans h
    exact ⟨fun b' hb => bankAt_modBank_ne hb f s, fun x => rfl⟩
  · exact exec_same .flash h (by rw [touches_flash, onBank_eq_isSome, hi]; rfl)

/-! ## Where a transfer stores (O24) -/

/-- The addresses of bytes `lo` to `hi - 1` of a range that begins at `a`, modulo the address space (R61). -/
def bytesOf (a lo hi : Nat) : Set Nat := {r | ∃ k, lo ≤ k ∧ k < hi ∧ (a + k) % 2 ^ 32 = r}

/-- What stores to the addresses `R` do to guest memory `g`: the canonical form stays, and so does every other byte. -/
def StoresIn (R : Set Nat) (g h : Guest) : Prop :=
  g.wf = true → h.wf = true ∧ ∀ x, x % 2 ^ 32 ∉ R → guestByte h x = guestByte g x

theorem StoresIn.of_cells {R : Set Nat} {g h : Guest} (e : h.cells = g.cells) : StoresIn R g h := fun hg =>
  ⟨by rwa [Guest.wf, e], fun x _ => guestByte_congr e x⟩

theorem StoresIn.refl (R : Set Nat) (g : Guest) : StoresIn R g g := .of_cells rfl

theorem StoresIn.trans {R : Set Nat} {g h k : Guest} (a : StoresIn R g h) (b : StoresIn R h k) : StoresIn R g k := by
  intro hg
  obtain ⟨hh, kept⟩ := a hg
  obtain ⟨hk, kept'⟩ := b hh
  exact ⟨hk, fun x hx => (kept' x hx).trans (kept x hx)⟩

theorem StoresIn.mono {R S : Set Nat} {g h : Guest} (a : StoresIn R g h) (sub : R ⊆ S) : StoresIn S g h := by
  intro hg
  obtain ⟨hh, kept⟩ := a hg
  exact ⟨hh, fun x hx => kept x (fun hr => hx (sub hr))⟩

theorem StoresIn.guestWrite (g : Guest) (a : Nat) (bs : List Byte) :
    StoresIn (bytesOf a 0 bs.length) g (guestWrite g a bs) := fun hg =>
  ⟨guestWrite_wf a bs hg, fun x hx => guestByte_guestWrite_other a bs x hg
    (fun k hk e => hx ⟨k, Nat.zero_le k, hk, e⟩)⟩

/-- A byte that none of the addresses is keeps its value. -/
theorem StoresIn.guestByte_eq {a lo hi : Nat} {g h : Guest} (st : StoresIn (bytesOf a lo hi) g h) (hg : g.wf = true)
    {x : Nat} (hx : ∀ k, lo ≤ k → k < hi → (a + k) % 2 ^ 32 ≠ x % 2 ^ 32) : guestByte h x = guestByte g x :=
  (st hg).2 x (fun ⟨k, hlo, hhi, e⟩ => hx k hlo hhi e)

/-! ### DMA -/

/-- One block of a copy stores within the whole copy's range (R213). -/
theorem storesIn_dmaBlockCopy {block src dst n : Nat} (hn : n < 2 ^ 32) (g : Guest) (j : Nat) :
    StoresIn (bytesOf dst 0 n) g (dmaBlockCopy block src dst n g j) := by
  intro hg
  obtain ⟨wf, -, -, -, others⟩ := Laws.dmaBlockCopy_spec (block := block) (src := src) (dst := dst) (j := j) hn hg
  exact ⟨wf, fun x hx => others x (fun i _ hi e => hx ⟨j * block + i, Nat.zero_le _, hi, e⟩)⟩

theorem storesIn_dmaCopy {block src dst n : Nat} (hn : n < 2 ^ 32) (g : Guest) :
    StoresIn (bytesOf dst 0 n) g (dmaCopy block src dst n g) :=
  List.foldlRecOn _ (dmaBlockCopy block src dst n) (motive := StoresIn (bytesOf dst 0 n) g) (.refl _ g)
    (fun _ st j _ => st.trans (storesIn_dmaBlockCopy hn _ j))

theorem exec_dmaStart_storesIn {ch : Nat} {v : Word} {s t : State} (h : exec (.dmaStart ch v) s = .next t) :
    StoresIn (bytesOf (dmaAt s ch).dst.toNat 0 (dmaAt s ch).count.toNat) s.mem t.mem := by
  simp only [exec, execDmaStart] at h
  split at h
  · cases h
    exact storesIn_dmaCopy (dmaAt s ch).count.isLt s.mem
  · cases h
    exact .refl _ s.mem

/-! ### SD -/

/-- The addresses of a data phase (R266). -/
def sdRange (x : SdState) : Set Nat := bytesOf x.dmaAddr.toNat 0 (4 * (x.dmaCount.toNat / 4))

theorem storesIn_sdTryData (s : State) : StoresIn (sdRange s.sd) s.mem (sdTryData s).mem := by
  obtain e | ⟨o, -, -, ⟨-, bs, env, len, e⟩ | ⟨-, c, e⟩⟩ := sdTryData_cases s
  · rw [e]
    exact .refl _ s.mem
  · rw [e]
    have written := StoresIn.guestWrite s.mem s.sd.dmaAddr.toNat bs
    rwa [len] at written
  · rw [e]
    exact .of_cells rfl

theorem sdTryIrq_cells (s : State) : (sdTryIrq s).mem.cells = s.mem.cells :=
  congrArg Prod.snd (cfAndCells_sdTryIrq s)

/-- A data phase and its interrupt store within the range of the controller they find (R263, R264). -/
theorem storesIn_sdPhase {s u t : State} (hm : u.mem = s.mem) (ha : u.sd.dmaAddr = s.sd.dmaAddr)
    (hc : u.sd.dmaCount = s.sd.dmaCount) (h : wrote (sdTryIrq (sdTryData u)) = .next t) :
    StoresIn (sdRange s.sd) s.mem t.mem := by
  have data := storesIn_sdTryData u
  rw [hm, sdRange, ha, hc] at data
  cases h
  exact data.trans (.of_cells (sdTryIrq_cells _))

theorem exec_sdDmactrlW_storesIn {v : Word} {s t : State} (h : exec (.sdDmactrlW v) s = .next t) :
    StoresIn (sdRange s.sd) s.mem t.mem :=
  storesIn_sdPhase (u := s.withSd { s.sd with dmaEnabled := controlBit v }) rfl rfl rfl h

/-- A command changes neither guest memory nor the DMA registers (R264, R265). -/
theorem sdCommand_dma (s : State) : (sdCommand s).mem = s.mem ∧ (sdCommand s).sd.dmaAddr = s.sd.dmaAddr ∧
    (sdCommand s).sd.dmaCount = s.sd.dmaCount := by
  obtain ⟨c, e, r, shape⟩ := sdCommand_shape s
  rw [shape]
  cases r <;> exact ⟨rfl, rfl, rfl⟩

theorem exec_sdIssue_storesIn {v : Word} {s t : State} (h : exec (.sdIssue v) s = .next t) :
    StoresIn (sdRange s.sd) s.mem t.mem := by
  simp only [exec, execSdIssue] at h
  split at h
  · obtain ⟨mem, addr, count⟩ := sdCommand_dma s
    exact storesIn_sdPhase mem addr count h
  · cases h
    exact .refl _ s.mem

/-! ### CF -/

/-- The addresses of the words a CF transfer has left to move (R287). -/
def cfRange (p : CfDma) : Set Nat := bytesOf p.addr.toNat (4 * p.done.toNat) (4 * p.words.toNat)

theorem storesIn_cfMoveWord {p : CfDma} (hp : p.done < p.words) (s : State) :
    StoresIn (cfRange p) s.mem (cfMoveWord p s).mem := by
  have lt : p.done.toNat < p.words.toNat := hp
  obtain ⟨-, bs, e, len, moved⟩ | ⟨-, c, moved⟩ := cfMoveWord_cases p s
  · rw [moved]
    refine (StoresIn.guestWrite s.mem (cfWordAddr p) bs).mono ?_
    rintro r ⟨k, -, hk, rfl⟩
    exact ⟨4 * p.done.toNat + k, by omega, by omega, by rw [cfWordAddr, Nat.add_assoc]⟩
  · rw [moved]
    exact .of_cells rfl

/-- The words left once one is moved are among those left before. -/
theorem cfRange_succ {p : CfDma} (hp : p.done < p.words) : cfRange { p with done := p.done + 1 } ⊆ cfRange p := by
  rintro r ⟨k, lo, hi, e⟩
  rw [Laws.done_succ p hp] at lo
  exact ⟨k, by omega, hi, e⟩

theorem storesIn_cfSliceLoop (k : Nat) (p : CfDma) (s : State) :
    StoresIn (cfRange p) s.mem (cfSliceLoop k p s).2.mem := by
  induction k generalizing p s with
  | zero => exact .refl _ s.mem
  | succ k ih =>
    obtain ⟨e, he⟩ := cfDataReady_snd s
    unfold cfSliceLoop
    split
    · rename_i hp
      dsimp only
      rw [he]
      split
      · exact (storesIn_cfMoveWord hp (s.withEnv e)).trans ((ih _ _).mono (cfRange_succ hp))
      · exact .refl _ s.mem
    · exact .refl _ s.mem

/-- A CF sub-step stores within the words its transfer has left (R287). -/
theorem storesIn_cfPhase (s : State) :
    StoresIn {r | ∃ p, s.cf.pendingDma = some p ∧ r ∈ cfRange p} s.mem (cfPhase s).mem := by
  unfold cfPhase cfSlice
  split
  · exact .refl _ s.mem
  · rename_i p hp
    have loop := (storesIn_cfSliceLoop s.cfg.cfSliceWords p s).mono
      (S := {r | ∃ p, s.cf.pendingDma = some p ∧ r ∈ cfRange p}) (fun r hr => ⟨p, hp, hr⟩)
    dsimp only
    split <;> exact loop

theorem exec_slice_storesIn {i : Instr} {s t : State} (hk : kindOf s i = .slice) (h : exec i s = .next t) :
    StoresIn {r | ∃ p, s.cf.pendingDma = some p ∧ r ∈ cfRange p} s.mem t.mem := by
  rw [exec_slice hk, tickerStep_eq_next] at h
  obtain ⟨-, -, rfl⟩ := h
  obtain e | ⟨r, e⟩ := orFatal_cases s (cfPhase s)
  · rw [e]
    exact storesIn_cfPhase s
  · rw [e]
    exact .refl _ s.mem

/-- Settles O24: each of the transfers stores within its range. -/
theorem transfersStoreInTheirRange : Obligations.TransfersStoreInTheirRange := by
  intro s t x hs
  refine ⟨fun ch v h hx => ?_, fun v h hx => ?_, fun p hp h hx => ?_⟩
  · exact (exec_dmaStart_storesIn h).guestByte_eq hs (fun k _ => hx k)
  · have stored : StoresIn (sdRange s.sd) s.mem t.mem := h.elim exec_sdIssue_storesIn exec_sdDmactrlW_storesIn
    exact stored.guestByte_eq hs (fun k _ => hx k)
  · have stored : StoresIn (cfRange p) s.mem t.mem := (exec_slice_storesIn rfl h).mono (by
      rintro r ⟨p', hp', hr⟩
      cases hp.symm.trans hp'
      exact hr)
    exact stored.guestByte_eq hs hx

/-! ## The canonical form of the memories (O11) -/

/-- Every operation keeps guest memory in its canonical form: a transfer stores, and no other operation does. -/
theorem exec_mem_wf {i : Instr} {s t : State} (h : exec i s = .next t) (hs : s.mem.wf = true) : t.mem.wf = true := by
  cases hk : kindOf s i with
  | slice => exact (exec_slice_storesIn hk h hs).1
  | transfer =>
    obtain ⟨ch, v, rfl⟩ | ⟨v, rfl⟩ | ⟨v, rfl⟩ := kindOf_eq_transfer hk
    · exact (exec_dmaStart_storesIn h hs).1
    · exact (exec_sdIssue_storesIn h hs).1
    · exact (exec_sdDmactrlW_storesIn h hs).1
  | cf | other => exact (StoresIn.of_cells (R := ∅) (exec_cells (by simp [hk]) (by simp [hk]) h) hs).1

/-! ### Bank images -/

/-- Every bank's image is in its canonical form: the second half of `State.memOk`. -/
def imagesOk (s : State) : Prop :=
  ∀ b, Memory.wf (some Config.erasedByte) (s.cfg.bankSize b) (bankAt s b).image = true

theorem imagesOk_congr {s t : State} (hc : t.cfg = s.cfg) (hf : t.flash = s.flash) (hs : imagesOk s) : imagesOk t := by
  unfold imagesOk bankAt at *
  rwa [hc, hf]

/-- A change of one bank that keeps its image canonical keeps every image so. -/
theorem modBank_imagesOk {s : State} {b : Nat} {f : FlashBank → FlashBank}
    (hf : ∀ x, Memory.wf (some Config.erasedByte) (s.cfg.bankSize b) x.image = true →
      Memory.wf (some Config.erasedByte) (s.cfg.bankSize b) (f x).image = true) (hs : imagesOk s) :
    imagesOk (modBank b f s) := by
  intro b'
  by_cases hb : b' = b
  · subst hb
    by_cases hlen : b' < s.flash.length
    · rw [bankAt_modBank _ _ _ _ hlen, if_pos rfl]
      exact hf _ (hs b')
    · have none : bankAt (modBank b' f s) b' = ⟨.read, 0, []⟩ := by
        simp [bankAt, List.getD_eq_getElem?_getD, Nat.le_of_not_lt hlen]
      rw [none]
      exact memory_wf_nil _ _
  · rw [bankAt_modBank_ne hb]
    exact hs b'

theorem programWord_wf {size : Nat} (w : Nat) (v : Half) {m : Memory}
    (hm : Memory.wf (some Config.erasedByte) size m = true) :
    Memory.wf (some Config.erasedByte) size (programWord size w v m) = true := by
  unfold programWord
  split
  · exact memWrite2_wf _ _ hm (by omega) (by omega)
  · exact hm

theorem passBytes_wf {size : Nat} (off : Nat) (v : Word) {m : Memory}
    (hm : Memory.wf (some Config.erasedByte) size m = true) :
    Memory.wf (some Config.erasedByte) size (passBytes size off v m) = true := by
  unfold passBytes
  split
  · rename_i lt
    dsimp only
    split
    · rename_i lt'
      exact memWrite2_wf _ _ hm lt lt'
    · exact memWrite_wf _ hm lt
  · exact hm

/-- Every write cycle keeps the images canonical, by the row it is (R329). -/
theorem flashCycle_imagesOk {s : State} (b off : Nat) (v : Word) (hs : imagesOk s) :
    imagesOk (flashCycle b off v s) := by
  unfold flashCycle
  cases writeRow s b off v with
  | chipErase | bypassChipErase => exact modBank_imagesOk (fun _ hx => memErase_wf _ _ hx) hs
  | blockErase | bypassBlockErase => exact modBank_imagesOk (fun _ hx => memErase_wf _ _ hx) hs
  | programData => exact modBank_imagesOk (fun _ hx => programWord_wf _ _ hx) hs
  | pass => exact modBank_imagesOk (fun _ hx => passBytes_wf _ _ hx) hs
  | badCycle => exact imagesOk_congr rfl rfl (modBank_imagesOk (b := b) (fun _ hx => hx) hs)
  | _ => exact modBank_imagesOk (fun _ hx => hx) hs

/-- A read of a bank leaves its image (R312, R328, R330). -/
theorem flashReadAccess_imagesOk {b off : Nat} {s t : State} (h : flashReadAccess b off s = .next t)
    (hs : imagesOk s) : imagesOk t := by
  have busy : imagesOk (busyRead b s) := by
    unfold busyRead
    split <;> exact modBank_imagesOk (fun _ hx => hx) hs
  unfold flashReadAccess at h
  split at h <;> cases h
  · exact hs
  · exact busy
  · exact hs

theorem exec_imagesOk {i : Instr} {s t : State} (h : exec i s = .next t) (hs : imagesOk s) : imagesOk t := by
  by_cases hb : onBank i = true
  · obtain ⟨b, off, v, e⟩ | ⟨b, off, e⟩ := exec_onBank hb s
    · cases e.symm.trans h
      exact flashCycle_imagesOk b off v hs
    · exact flashReadAccess_imagesOk (e ▸ h) hs
  · exact imagesOk_congr (exec_cfg h) (exec_same .flash h ((touches_flash i).trans (by simpa using hb))) hs

theorem memOk_congr {s t : State} (hc : t.cfg = s.cfg) (hf : t.flash = s.flash) (hm : t.mem.cells = s.mem.cells)
    (hs : s.memOk) : t.memOk := by
  obtain ⟨mem, images⟩ := hs
  exact ⟨by rwa [Guest.wf, hm], imagesOk_congr hc hf images⟩

/-- An owed trigger changes no memory (R83). -/
theorem owed_memOk {u : State} (q : TriggerCall) (rest : List TriggerCall) (hu : u.memOk) :
    (orFatal u (trigger q.id q.delay (u.withAgents { u.agents with cpuQueue := rest }))).memOk := by
  have same := (((SameBut.withAgents { u.agents with cpuQueue := rest } u).mono (qs := [.queue, .ic, .raises])
    (by simp)).trans ((SameBut.trigger q.id q.delay _).mono (by simp))).orFatal
  exact memOk_congr (same .cfg (by simp)) (same .flash (by simp)) (congrArg Prod.snd (cfAndCells_owed q rest u)) hu

/-- Settles O11: every operation keeps guest memory and the images canonical, an owed trigger changes neither, and a
store of the CPU collaborator is a write (R61). -/
theorem memoryStaysCanonical : Obligations.MemoryStaysCanonical := by
  intro s t hs h
  have popped : (popEvent s).memOk := hs
  obtain ⟨-, ⟨bytes, i, -, -, -, he⟩ | ⟨q, rest, u, -, hu, rfl⟩ | ⟨addr, bytes, -, rfl⟩ | ⟨pc, -, rfl⟩⟩ :=
    step_cases h
  · exact ⟨exec_mem_wf he popped.1, exec_imagesOk he popped.2⟩
  · obtain rfl | rfl := hu
    · exact owed_memOk q rest hs
    · exact owed_memOk q rest popped
  · exact ⟨guestWrite_wf _ bytes hs.1, popped.2⟩
  · exact popped

end Sys2Proof.Proofs

namespace Sys2Proof.Proofs

open Sys2Proof.Machine

/-! ## Requests (O1) -/

/-- The four bytes of a word make the word again (R12). -/
theorem le32_bytesLe32 (v : Word) :
    le32 (v.extractLsb' 0 8) (v.extractLsb' 8 8) (v.extractLsb' 16 8) (v.extractLsb' 24 8) = v := by
  rw [le32, BitVec.extractLsb'_append_extractLsb'_eq_extractLsb' (by rfl),
    BitVec.extractLsb'_append_extractLsb'_eq_extractLsb' (by rfl),
    BitVec.extractLsb'_append_extractLsb'_eq_extractLsb' (by rfl)]
  exact BitVec.extractLsb'_eq_self

theorem tickOpOf_code (op : TickOp) : tickOpOf op.code = some op := by
  cases op <;> rfl

theorem hostOpOf_code (op : HostOp) : hostOpOf op.code = some op := by
  cases op <;> rfl

/-- A code byte held in a 32-bit field has the reserved bits clear. -/
theorem setWidth_shiftRight_eq_zero (x : Byte) : x.setWidth 32 >>> 8 = (0 : Word) := by
  ext i hi
  simp

/-- Two fields, encoded as bytes after a format byte, are the fields decoded. -/
theorem decodeRequest_fields (code : Byte) (x y : Word) :
    decodeRequest (code :: (bytesLe32 x ++ bytesLe32 y)) = transactionOf code x y := by
  simp only [bytesLe32, List.cons_append, List.nil_append, decodeRequest, le32_bytesLe32]

/-- A transaction without what the block ignores: a read carries no value (R62). -/
def normalRequest : Transaction → Transaction
  | .acc a false _ => .acc a false 0
  | t => t

theorem decodeRequest_encodeRequest (t : Transaction) : decodeRequest (encodeRequest t) = .ok (normalRequest t) := by
  cases t with
  | acc a write v => cases write <;> exact decodeRequest_fields _ a _
  | trig id d => exact decodeRequest_fields 2 id d
  | tick op =>
    rw [encodeRequest, decodeRequest_fields]
    simp [transactionOf, tickOpOf_code, setWidth_shiftRight_eq_zero, normalRequest]
  | host op =>
    rw [encodeRequest, decodeRequest_fields]
    simp [transactionOf, hostOpOf_code, setWidth_shiftRight_eq_zero, normalRequest]
  | ideDone => exact decodeRequest_fields 5 0 0

/-- Settles O1: by the kind of transaction, each a format byte and two fields. -/
theorem requestRoundTrip : Obligations.RequestRoundTrip := fun t =>
  (decodeRequest_encodeRequest t).trans (by cases t with | acc a write v => cases write <;> rfl | _ => rfl)

/-! ## The selected handler -/

theorem decodeAccess_handler {w : View} {a : Word} {h : Handler} {k : Sys2Proof.Kind}
    (hs : selectHandler w.cfg a = some h) (hk : h.kind = k) (write : Bool) (v : Word) :
    decodeAccess w a write v = handle w k h.param a write v := by
  simp only [decodeAccess, hs, hk]

theorem decodeAccess_known {w : View} {a : Word} (hs : selectHandler w.cfg a = none) (hk : known w.cfg a = true)
    (write : Bool) (v : Word) : decodeAccess w a write v = if write then .accDefaultW a v else .accDefaultR a := by
  simp only [decodeAccess, hs, hk, if_true]

theorem decodeAccess_unknown {w : View} {a : Word} (hs : selectHandler w.cfg a = none) (hk : known w.cfg a = false)
    (write : Bool) (v : Word) : decodeAccess w a write v = if write then .accUnknownW a v else .accUnknownR a := by
  simp only [decodeAccess, hs, hk, Bool.false_eq_true, if_false]

/-- No handler reads the value of a read access (R62). -/
theorem handle_read_value (w : View) (k : Sys2Proof.Kind) (p a v : Word) :
    handle w k p a false v = handle w k p a false 0 := by
  cases k <;>
    simp only [handle, decodeFlash, decodeChsw, decodeCf, decodeModelConst, decodeReg, Bool.false_eq_true, if_false]

theorem decodeTransaction_normalRequest (w : View) (t : Transaction) :
    decodeTransaction w (normalRequest t) = decodeTransaction w t := by
  cases t with
  | acc a write v =>
    cases write with
    | true => rfl
    | false =>
      show decodeAccess w a false 0 = decodeAccess w a false v
      unfold decodeAccess
      split
      · rfl
      · exact (handle_read_value w _ _ a v).symm
  | _ => rfl

/-! ## Decoding what was encoded -/

/-- The bytes of a transaction decode to the operation that the transaction selects. -/
theorem decode_encodeRequest (w : View) (t : Transaction) :
    decode w (encodeRequest t) = .ok (decodeTransaction w t) := by
  simp only [decode, decodeRequest_encodeRequest, decodeTransaction_normalRequest]

/-- An operation decodes back when its own transaction selects it. -/
theorem encode_decode {w : View} {i : Instr} {t : Transaction} (ht : encodeTransaction w.cfg i = some t)
    (hi : decodeTransaction w t = i) : ∃ bytes, encode w.cfg i = some bytes ∧ decode w bytes = .ok i :=
  ⟨encodeRequest t, by simp only [encode, ht, Option.map_some], by rw [decode_encodeRequest, hi]⟩

theorem encode_map_decode {w : View} {i : Instr} {t : Transaction} (ht : encodeTransaction w.cfg i = some t)
    (hi : decodeTransaction w t = i) : (encode w.cfg i).map (decode w) = some (.ok i) := by
  obtain ⟨bytes, he, hd⟩ := encode_decode ht hi
  rw [he, Option.map_some, hd]

/-! ## Named registers (R91, R92) -/

/-- The kinds of handler whose accesses select a named register. -/
def registerKinds : List Sys2Proof.Kind := [.ic, .timer, .hptimer, .dma, .edmac, .sdio, .cf, .display]

theorem mem_registerKinds_of_inKind {r : RegName} {k : Sys2Proof.Kind} (h : r.inKind k = true) :
    k ∈ registerKinds := by
  cases k with
  | flash | chsw | modelConst => cases r <;> cases h
  | _ => simp [registerKinds]

/-- A handler of a kind with named registers decodes a register access, outside the ATA window (R122, R280). -/
theorem handle_registerKinds {w : View} {k : Sys2Proof.Kind} {a : Word} (hk : k ∈ registerKinds)
    (hcf : k = .cf → inRange w.cfg.cfAtaBase w.cfg.cfAtaLast a = false) (p : Word) (write : Bool) (v : Word) :
    handle w k p a write v = decodeReg w.cfg k a write v := by
  cases k with
  | flash | chsw | modelConst => simp [registerKinds] at hk
  | cf => simp only [handle, decodeCf, hcf rfl, Bool.false_eq_true, if_false]
  | _ => rfl

theorem addrOf_mem {c : Cfg} {r : RegName} {a : Word} (h : addrOf c r = some a) : (r, a) ∈ c.addrMap := by
  obtain ⟨⟨q, b⟩, he, rfl⟩ := Option.map_eq_some_iff.1 h
  have : q = r := by simpa using List.find?_some he
  exact this ▸ List.mem_of_find?_eq_some he

/-- No two registers share an address (R91): the entry of an address is found by the address. -/
theorem find?_addr_of_mem {l : List (RegName × Word)} (hl : addrMapRising l = true) {e : RegName × Word}
    (he : e ∈ l) : l.find? (fun f => f.2 == e.2) = some e := by
  have distinct : (l.map (·.2)).Nodup :=
    List.pairwise_map.2 (((Laws.addrMapRising_iff l).1 hl).imp BitVec.ne_of_lt)
  obtain ⟨f, hf⟩ := Option.isSome_iff_exists.1 (List.find?_isSome (p := fun f => f.2 == e.2).2 ⟨e, he, by simp⟩)
  have same : f.2 = e.2 := by simpa using List.find?_some hf
  rw [hf, List.inj_on_of_nodup_map distinct (List.mem_of_find?_eq_some hf) he same]

/-- The address of a register selects the register in its own handler (R91). -/
theorem regAt_of_addrOf {c : Cfg} {r : RegName} {a : Word} {k : Sys2Proof.Kind} (hc : c.wf = true)
    (ha : addrOf c r = some a) (hk : r.inKind k = true) : regAt c k a = some r := by
  obtain ⟨-, -, -, -, -, -, -, -, rising, names, -⟩ := (wf_iff c).1 hc
  have mem := addrOf_mem ha
  have present : r.present c = true := ((Laws.namesOk_iff c).1 names).2 r |>.1 (List.mem_map_of_mem (f := (·.1)) mem)
  simp only [regAt, find?_addr_of_mem rising mem, hk, present, Bool.and_self, if_true]

/-- An operation on a register is the one that R92 gives the register in that direction. -/
theorem op_of_reg {c : Cfg} {i : Instr} {r : RegName} {write : Bool} {v : Word} (hr : i.reg = some (r, write, v))
    (hi : i.wf c = true) : (if write then regWriteOp c v r else regReadOp r) = some i := by
  cases i with
  | cfDmaReq =>
    cases hr
    exact if_pos (by simpa only [Instr.wf, Bool.or_eq_true, decide_eq_true_eq] using hi)
  | sdDmaregW q | sdDmaregR q | cfDmaregW q | cfDmaregR q => cases q <;> cases hr <;> rfl
  | planeAddrW p | planeAddrR p => cases p <;> cases hr <;> rfl
  | _ => cases hr <;> rfl

/-- The unmodeled access of a direction (R124). -/
def unmodeled (a : Word) (write : Bool) (v : Word) : Instr := if write then .accUnmodeledW a v else .accUnmodeledR a

theorem decodeReg_none {c : Cfg} {k : Sys2Proof.Kind} {a : Word} (hat : regAt c k a = none) (write : Bool) (v : Word) :
    decodeReg c k a write v = unmodeled a write v := by
  simp only [decodeReg, hat, unmodeled]

theorem decodeReg_some {c : Cfg} {k : Sys2Proof.Kind} {a : Word} {r : RegName} (hat : regAt c k a = some r)
    (write : Bool) (v : Word) :
    decodeReg c k a write v = (if write then regWriteOp c v r else regReadOp r).getD (unmodeled a write v) := by
  simp only [decodeReg, hat, unmodeled]
  split <;> rfl

theorem decodeReg_of_reg {c : Cfg} {i : Instr} {r : RegName} {write : Bool} {v a : Word} {k : Sys2Proof.Kind}
    (hat : regAt c k a = some r) (hr : i.reg = some (r, write, v)) (hi : i.wf c = true) :
    decodeReg c k a write v = i := by
  rw [decodeReg_some hat, op_of_reg hr hi, Option.getD_some]

theorem encodeTransaction_of_reg {c : Cfg} {i : Instr} {r : RegName} {write : Bool} {v a : Word}
    (hr : i.reg = some (r, write, v)) (ha : addrOf c r = some a) : encodeTransaction c i = some (.acc a write v) := by
  simp only [encodeTransaction, hr, ha, Option.map_some]

/-- Settles O2: the address is the register's alone, and the register's operation is the operation encoded. -/
theorem registerOperationsRoundTrip : Obligations.RegisterOperationsRoundTrip := by
  intro w i r write v a h hc hi hr ha hs hk hcf
  refine encode_decode (encodeTransaction_of_reg hr ha) ?_
  calc decodeAccess w a write v
      = handle w h.kind h.param a write v := decodeAccess_handler hs rfl write v
    _ = decodeReg w.cfg h.kind a write v := handle_registerKinds (mem_registerKinds_of_inKind hk) hcf _ write v
    _ = i := decodeReg_of_reg (regAt_of_addrOf hc ha hk) hr hi

/-! ## Flash (R310, R311) -/

/-- A bank's window is inside the address space (R67). -/
theorem bank_fits {c : Cfg} (hc : c.wf = true) (b : Nat) : (c.bankBase b).toNat + c.bankSize b ≤ 2 ^ 32 := by
  obtain ⟨-, -, -, -, -, flash, -⟩ := (wf_iff c).1 hc
  simp only [Cfg.flashOk, BankCfg.wf, Bool.and_eq_true, List.all_eq_true, decide_eq_true_eq] at flash
  obtain ⟨⟨-, banks⟩, -⟩ := flash
  cases hb : c.banks[b]? with
  | none => simp [Cfg.bankBase, Cfg.bankSize, hb]
  | some x =>
    obtain ⟨⟨-, fits⟩, -⟩ := banks x (List.mem_of_getElem? hb)
    simpa [Cfg.bankBase, Cfg.bankSize, hb] using fits

/-- The offset of an address made from a base and an offset below 2^32. -/
theorem toNat_add_ofNat_sub (base : Word) {off : Nat} (h : off < 2 ^ 32) :
    (base + BitVec.ofNat 32 off - base).toNat = off := by
  rw [BitVec.add_comm, BitVec.add_sub_cancel, BitVec.toNat_ofNat, Nat.mod_eq_of_lt h]

/-- A flash operation is no register access, and its offset is in its bank. -/
theorem flashAccess_inBank {c : Cfg} {i : Instr} {b off : Nat} {write : Bool} {v : Word}
    (ha : i.flashAccess = some (b, off, write, v)) (hi : i.wf c = true) : i.reg = none ∧ c.inBank b off = true := by
  cases i with
  | flRead | flBusyRead | flUnlock1 | flUnlock2 | flCmdProgram | flCmdErase | flEraseUnlock1 | flEraseUnlock2
  | flChipErase | flBlockErase | flBypassEraseEntry | flBypassProgramEntry | flBypassChipErase | flBypassBlockErase
  | flProgramData | flBadCycle | flPassR | flPassW =>
    cases ha
    exact ⟨rfl, (Bool.and_eq_true _ _ ▸ hi).2⟩
  | _ => cases ha

theorem decodeFlash_inBank {w : View} {b off : Nat} (hc : w.cfg.wf = true) (hb : w.cfg.inBank b off = true)
    (write : Bool) (v : Word) :
    decodeFlash w b (w.cfg.bankBase b + BitVec.ofNat 32 off) write v =
      if write then (selectFlashWrite w.cfg (w.flashState b) off v).op b off v
      else (selectFlashRead w.cfg (w.flashState b)).op b off := by
  obtain ⟨-, bound⟩ : b < w.cfg.nBanks ∧ off < w.cfg.bankSize b := by simpa [Cfg.inBank] using hb
  have fits := bank_fits hc b
  simp only [decodeFlash, toNat_add_ofNat_sub _ (show off < 2 ^ 32 by omega), hb, if_true]

/-- Settles O3: the address gives back the offset in the bank, and the row chosen is the operation encoded. -/
theorem flashOperationsRoundTrip : Obligations.FlashOperationsRoundTrip := by
  intro w i b off write v h hc hi ha hs hk row
  obtain ⟨noReg, inBank⟩ := flashAccess_inBank ha hi
  refine encode_decode (t := .acc (w.cfg.bankBase b + BitVec.ofNat 32 off) write v)
    (by simp only [encodeTransaction, noReg, ha]) ?_
  calc decodeAccess w (w.cfg.bankBase b + BitVec.ofNat 32 off) write v
      = decodeFlash w b (w.cfg.bankBase b + BitVec.ofNat 32 off) write v := decodeAccess_handler hs hk write v
    _ = if write then (selectFlashWrite w.cfg (w.flashState b) off v).op b off v
        else (selectFlashRead w.cfg (w.flashState b)).op b off := decodeFlash_inBank hc inBank write v
    _ = i := by cases write <;> exact row.symm

/-! ## The other operations (O5) -/

/-- An operation of another agent than the CPU is a transaction of its own (R90). -/
theorem encodeTransaction_of_agent {i : Instr} (hi : agentOf i ≠ .cpu) (w : View) :
    ∃ t, encodeTransaction w.cfg i = some t ∧ decodeTransaction w t = i := by
  cases i with
  | icTrigger | icTickWalk | tmrTick | hptTick | cfIdeDone | cfDmaSlice | cfDmaIrq | dispCompose | dispInvalidate | tick
  | hostHalt | hostRelease => exact ⟨_, rfl, rfl⟩
  | _ => exact absurd rfl hi

/-- A read in the MODELCONST handler (R125). -/
theorem decodeModelConst_read (c : Cfg) (a v : Word) :
    decodeModelConst c a false v = if modelConstAt c a = none then .accUnmodeledR a else .modelConstR a := by
  cases h : modelConstAt c a <;> simp [decodeModelConst, h]

/-- Settles O5: each address class selects its own operation, for a read and for a write. -/
theorem otherOperationsRoundTrip : Obligations.OtherOperationsRoundTrip := by
  intro w a v
  refine ⟨fun i hi => ?_, fun hs hk => ⟨?_, ?_⟩, fun hs hk => ⟨?_, ?_⟩, fun h hs => ?_⟩
  · obtain ⟨t, ht, hd⟩ := encodeTransaction_of_agent hi w
    exact encode_decode ht hd
  · exact encode_map_decode rfl (decodeAccess_unknown hs hk false 0)
  · exact encode_map_decode rfl (decodeAccess_unknown hs hk true v)
  · exact encode_map_decode rfl (decodeAccess_known hs hk false 0)
  · exact encode_map_decode rfl (decodeAccess_known hs hk true v)
  · refine ⟨fun hk => ?_, fun hk hm => ?_, fun hk hm => ?_, fun hk => ?_⟩
    · exact encode_map_decode rfl (decodeAccess_handler hs hk false 0)
    · exact encode_map_decode rfl ((decodeAccess_handler hs hk false 0).trans
        ((decodeModelConst_read w.cfg a 0).trans (if_neg hm)))
    · exact encode_map_decode rfl ((decodeAccess_handler hs hk false 0).trans
        ((decodeModelConst_read w.cfg a 0).trans (if_pos hm)))
    · exact encode_map_decode rfl (decodeAccess_handler hs hk true v)

/-! ## Unmodeled accesses (O6) -/

/-- R92 gives an operation to no read of a register that is not readable. -/
theorem regReadOp_eq_none {r : RegName} (h : readable r = false) : regReadOp r = none := by
  cases r with
  | icEnable | icDisable | dmaCtrl | edmCtrl | sdCmdFlags | cfDmaCtrl => rfl
  | _ => cases h

theorem regWriteOp_eq_none {r : RegName} (h : writable r = false) (c : Cfg) (v : Word) : regWriteOp c v r = none := by
  cases r with
  | icCurrent | clock | tmrValue | sdResp | sdStatus | sdDmaProgress | cfIntStatus => rfl
  | _ => cases h

/-- A write of CF_DMA_CTRL with neither command is no operation of the register (R100). -/
theorem regWriteOp_cfDmaCtrl {c : Cfg} {v : Word} (hr : v ≠ 0x39) (hw : v ≠ c.cfDmaWriteCmd) :
    regWriteOp c v .cfDmaCtrl = none :=
  if_neg (not_or.2 ⟨hr, hw⟩)

theorem decodeReg_unmodeled {c : Cfg} {k : Sys2Proof.Kind} {a v : Word} {write : Bool}
    (h : ∀ r, regAt c k a = some r → (if write then regWriteOp c v r else regReadOp r) = none) :
    decodeReg c k a write v = unmodeled a write v := by
  cases hat : regAt c k a with
  | none => exact decodeReg_none hat write v
  | some r => rw [decodeReg_some hat, h r hat, Option.getD_none]

theorem chswOffset_eq_none {c : Cfg} {s : ChswSub} {a : Word}
    (h : 4 * (c.chsw s).map.length ≤ (a - (c.chsw s).base).toNat) : chswOffset c s a = none := by
  have outside : c.inChsw s (a - (c.chsw s).base).toNat = false := decide_eq_false (Nat.not_lt.2 h)
  simp only [chswOffset, outside, Bool.false_eq_true, if_false]

theorem decodeFlash_outside {w : View} {b : Nat} {a : Word} (h : w.cfg.bankSize b ≤ (a - w.cfg.bankBase b).toNat)
    (write : Bool) (v : Word) : decodeFlash w b a write v = unmodeled a write v := by
  have outside : w.cfg.inBank b (a - w.cfg.bankBase b).toNat = false := by
    rw [Cfg.inBank, decide_eq_false (Nat.not_lt.2 h), Bool.and_false]
  simp only [decodeFlash, outside, Bool.false_eq_true, if_false, unmodeled]

/-- Settles O6: a register with no operation in that direction, a place in no sub-range, a place outside the bank. -/
theorem wrongAccessesAreUnmodeled : Obligations.WrongAccessesAreUnmodeled := by
  intro w a v write h hs
  refine ⟨fun hk hcf wrong => ?_, fun hk hout hat hr hw => ?_, fun hk out => ?_, fun b hk out => ?_⟩
  · rw [decodeAccess_handler hs rfl, handle_registerKinds hk hcf]
    refine decodeReg_unmodeled fun r hat => ?_
    have access := wrong r hat
    cases write
    · exact regReadOp_eq_none access
    · exact regWriteOp_eq_none access w.cfg v
  · rw [decodeAccess_handler hs hk, handle_registerKinds (by simp [registerKinds]) (fun _ => hout)]
    refine decodeReg_unmodeled (write := true) fun r hat' => ?_
    obtain rfl := Option.some.inj (hat.symm.trans hat')
    exact regWriteOp_cfDmaCtrl hr hw
  · rw [decodeAccess_handler hs hk, handle, decodeChsw]
    simp [chswOffset_eq_none (out _)]
  · exact (decodeAccess_handler hs hk write v).trans (decodeFlash_outside out write v)

/-! ## Requests under the test configuration (O7) -/

theorem decode_of_bytes {w : View} {t : Transaction} {i : Instr} {bytes : List Byte} (hb : encodeRequest t = bytes)
    (hi : decodeTransaction w t = i) : decode w bytes = .ok i := by
  rw [← hb, decode_encodeRequest, hi]

/-- Settles O7: each request is the bytes of a transaction, which selects the operation under `TC`. -/
theorem wordsDecode : Obligations.WordsDecode := by
  refine ⟨?_, ?_, ?_, ?_, ?_, ?_, ?_⟩
  · exact decode_of_bytes (t := .acc 0xC0201010 true 0x0A) (by decide) (by decide +kernel)
  · exact decode_of_bytes (t := .acc 0xC0242014 false 0) (by decide) (by decide +kernel)
  · exact decode_of_bytes (t := .acc 0xC0A00008 true 1) (by decide) (by decide +kernel)
  · exact decode_of_bytes (t := .acc 0xC0F14BFC true 0x00010203) (by decide) (by decide +kernel)
  · exact decode_of_bytes (t := .acc 0xF8000AAA true 0xAA) (by decide) (by decide +kernel)
  · exact decode_of_bytes (t := .acc 0xD0000000 false 0) (by decide) (by decide +kernel)
  · exact decode_of_bytes (t := .trig 5 3) (by decide) (by decide +kernel)

end Sys2Proof.Proofs

namespace Sys2Proof.Proofs

open Sys2Proof.Machine

/-! ## The shape of the state (O15) -/

/-- What `State.shapeOk` speaks of, with where guest memory is: the configuration, the length of each array, the plane
records. -/
structure Shape where
  cfg : Cfg
  holes : List (Word × Word)
  lines : Nat
  tmr : Nat
  hpt : Nat
  dma : Nat
  edmac : Nat
  readConn : Nat
  writeConn : Nat
  banks : Nat
  pal4 : Nat
  pal8 : Nat
  seenBmp : Option (List (List Byte))
  seenYuv : Option (List (List Byte))
  surface : Nat

/-- The shape of a state. -/
def shape (s : State) : Shape where
  cfg := s.cfg
  holes := s.mem.holes
  lines := s.ic.line.length
  tmr := s.tmr.length
  hpt := s.hpt.length
  dma := s.dma.length
  edmac := s.edmac.length
  readConn := s.conn.readConn.length
  writeConn := s.conn.writeConn.length
  banks := s.flash.length
  pal4 := s.disp.pal4.length
  pal8 := s.disp.pal8.length
  seenBmp := s.disp.seenBmp
  seenYuv := s.disp.seenYuv
  surface := s.surface.length

/-- What every step keeps: the configuration, the arrays at their lengths, where guest memory is. -/
def KeepsShape (s t : State) : Prop :=
  t.cfg = s.cfg ∧ (s.shapeOk → t.shapeOk) ∧ t.mem.holes = s.mem.holes

theorem KeepsShape.of_shape {s t : State} (h : shape t = shape s) : KeepsShape s t := by
  obtain ⟨cfg, holes, lines, tmr, hpt, dma, edmac, readConn, writeConn, banks, pal4, pal8, seenBmp, seenYuv,
    surface⟩ := Shape.mk.inj h
  refine ⟨cfg, fun hs => ?_, holes⟩
  unfold State.shapeOk
  rwa [cfg, lines, tmr, hpt, dma, edmac, readConn, writeConn, banks, pal4, pal8, seenBmp, seenYuv, surface]

/-! ### One record of an array -/

theorem shape_modLine (id : Nat) (f : Line → Line) (s : State) : shape (modLine id f s) = shape s := by
  simp [shape]

theorem shape_modTmr (n : Nat) (f : TimerChannel → TimerChannel) (s : State) : shape (modTmr n f s) = shape s := by
  simp [shape, modTmr]

theorem shape_modHpt (n : Nat) (f : HptChannel → HptChannel) (s : State) : shape (modHpt n f s) = shape s := by
  simp [shape, modHpt]

theorem shape_modDma (c : Nat) (f : DmaChannel → DmaChannel) (s : State) : shape (modDma c f s) = shape s := by
  simp [shape, modDma]

theorem shape_modEdmac (ch : Nat) (f : EdmacChannel → EdmacChannel) (s : State) :
    shape (modEdmac ch f s) = shape s := by
  simp [shape, modEdmac]

theorem shape_modBank (b : Nat) (f : FlashBank → FlashBank) (s : State) : shape (modBank b f s) = shape s := by
  simp [shape]

/-! ### Interrupts and the ticker -/

theorem shape_orFatal {s t : State} (h : shape t = shape s) : shape (orFatal s t) = shape s := by
  obtain e | ⟨r, e⟩ := orFatal_cases s t
  · rwa [e]
  · rw [e]
    rfl

theorem shape_of_tickerStep {f : State → State} {s t : State} (hf : shape (f s) = shape s)
    (h : tickerStep f s = .next t) : shape t = shape s := by
  rw [tickerStep_eq_next] at h
  obtain ⟨-, -, rfl⟩ := h
  exact shape_orFatal hf

/-- A loop over a list keeps the shape that each round of it keeps. -/
theorem shape_foldl {α : Type} {f : State → α → State} (hf : ∀ s a, shape (f s a) = shape s) (l : List α)
    (s : State) : shape (l.foldl f s) = shape s :=
  foldl_keeps (P := fun u => shape u = shape s) (fun u a hu => (hf u a).trans hu) l rfl

theorem shape_deliver (id : Nat) (s : State) : shape (deliver id s) = shape s := by
  simp [shape]

theorem shape_trigger (id d : Word) (s : State) : shape (trigger id d s) = shape s := by
  obtain ⟨-, e⟩ | ⟨-, -, -, -, e⟩ | ⟨-, -, e⟩ := trigger_cases id d s
  · rw [e]
    rfl
  · rw [e]
    exact shape_deliver _ s
  · rw [e]
    exact shape_modLine _ _ s

theorem shape_walkLine (s : State) (id : Nat) : shape (walkLine s id) = shape s := by
  obtain ⟨-, e⟩ | ⟨-, -, -, e⟩ | ⟨-, -, e⟩ := walkLine_cases s id
  · rw [e]
    exact shape_modLine _ _ s
  · rw [e]
    exact (shape_deliver id _).trans (shape_modLine _ _ s)
  · rw [e]

theorem shape_tickWalk (s : State) : shape (tickWalk s) = shape s := shape_foldl shape_walkLine _ s

theorem shape_disableLine (s : State) (id : Nat) : shape (disableLine s id) = shape s := by
  have disabled : shape (setEnabled id false s) = shape s := shape_modLine _ _ s
  unfold disableLine
  dsimp only
  split <;> exact disabled

theorem shape_timersAdvance (s : State) : shape (timersAdvance s) = shape s := by
  simp [shape, timersAdvance]

theorem shape_hptCompare (s : State) : shape (hptCompare s) = shape s := by
  simp [shape, hptCompare]

theorem shape_raiseHpt (fired : Bool) (s : State) : shape (raiseHpt fired s) = shape s := by
  unfold raiseHpt
  split
  · exact shape_trigger _ _ s
  · rfl

theorem shape_timersPhase (s : State) : shape (timersPhase s) = shape s :=
  calc shape (timersPhase s)
    _ = shape (tickWalk (hptCompare (timersAdvance s))) := shape_raiseHpt (hptFired (timersAdvance s)) _
    _ = shape (hptCompare (timersAdvance s)) := shape_tickWalk _
    _ = shape (timersAdvance s) := shape_hptCompare _
    _ = shape s := shape_timersAdvance s

theorem shape_cfIrqPhase (s : State) : shape (cfIrqPhase s) = shape s := shape_trigger s.cfg.cfDmaIrq 0 s

/-! ### Transfers and storage -/

theorem dmaBlockCopy_holes (block src dst n : Nat) (g : Guest) (j : Nat) :
    (dmaBlockCopy block src dst n g j).holes = g.holes := rfl

theorem dmaCopy_holes (block src dst n : Nat) (g : Guest) : (dmaCopy block src dst n g).holes = g.holes :=
  List.foldlRecOn _ (dmaBlockCopy block src dst n) (motive := fun h => h.holes = g.holes) rfl
    (fun h kept j _ => (dmaBlockCopy_holes block src dst n h j).trans kept)

theorem shape_dmaRun (c : Nat) (s : State) : shape (dmaRun c s) = shape s := by
  simp [shape, dmaRun, dmaCopy_holes]

theorem shape_sdTryData (s : State) : shape (sdTryData s) = shape s := by
  obtain e | ⟨o, -, -, ⟨-, bs, env, -, e⟩ | ⟨-, c, e⟩⟩ := sdTryData_cases s <;> rw [e] <;> rfl

theorem shape_sdTryIrq (s : State) : shape (sdTryIrq s) = shape s := by
  obtain e | ⟨-, -, e⟩ := sdTryIrq_cases s
  · rw [e]
  · rw [e]
    rfl

theorem shape_sdCommand (s : State) : shape (sdCommand s) = shape s := by
  obtain ⟨c, e, r, he⟩ := sdCommand_shape s
  rw [he]
  rfl

theorem shape_of_ideSignal {s t : State} (h : IdeSignal s t) : shape t = shape s := by
  obtain ⟨e, rfl | rfl⟩ := h <;> rfl

theorem shape_ideRead (off : Nat) (s : State) : shape (ideRead off s).2 = shape s := by
  obtain ⟨e, he⟩ := ideRead_snd off s
  rw [he]
  rfl

theorem shape_cfFlag (dir : Dir) (s : State) : shape (cfFlag dir s) = shape s := by
  unfold cfFlag
  dsimp only
  split <;> rfl

theorem shape_cfMoveWord (p : CfDma) (s : State) : shape (cfMoveWord p s) = shape s := by
  obtain ⟨-, bs, e, -, moved⟩ | ⟨-, c, moved⟩ := cfMoveWord_cases p s <;> rw [moved] <;> rfl

theorem shape_cfSliceLoop (k : Nat) (p : CfDma) (s : State) : shape (cfSliceLoop k p s).2 = shape s := by
  induction k generalizing p s with
  | zero => rfl
  | succ k ih =>
    obtain ⟨e, he⟩ := cfDataReady_snd s
    unfold cfSliceLoop
    split
    · dsimp only
      rw [he]
      split
      · exact (ih _ _).trans (shape_cfMoveWord p (s.withEnv e))
      · rfl
    · rfl

theorem shape_cfPhase (s : State) : shape (cfPhase s) = shape s := by
  unfold cfPhase cfSlice
  split
  · rfl
  · rename_i p hp
    have loop := shape_cfSliceLoop s.cfg.cfSliceWords p s
    dsimp only
    split <;> exact loop

theorem shape_tickPhaseStep (s : State) : shape (tickPhaseStep s) = shape s := by
  unfold tickPhaseStep
  split
  · exact shape_timersPhase s
  · exact shape_cfPhase s
  · exact shape_cfIrqPhase s

/-! ### The dispatcher and the channel switch -/

theorem shape_unknownAccess (a : Word) (write : Bool) (v : Word) (s : State) :
    shape (unknownAccess a write v s) = shape s := by
  unfold unknownAccess
  dsimp only
  split <;> rfl

theorem shape_chswReadAssign (sub : ChswSub) (off : Nat) (v : Word) (s : State) :
    shape (chswReadAssign sub off v s) = shape s := by
  unfold chswReadAssign
  split
  · rfl
  · split
    · simp [shape]
    · rfl

theorem shape_chswWriteAssign (sub : ChswSub) (off : Nat) (v : Word) (s : State) :
    shape (chswWriteAssign sub off v s) = shape s := by
  unfold chswWriteAssign
  split
  · rfl
  · simp [shape]

/-! ### Operations -/

theorem exec_onBank_shape {i : Instr} {s t : State} (hi : onBank i = true) (h : exec i s = .next t) :
    shape t = shape s := by
  obtain ⟨⟨b, off, write, v⟩, hi⟩ := Option.isSome_iff_exists.1 (onBank_eq_isSome i ▸ hi)
  obtain ⟨f, c, r, e⟩ := exec_flashAccess hi s
  cases e.symm.trans h
  exact shape_modBank b f s

/-- Every operation but the composite keeps the shape: it stores to entries of an array, never adds or drops one. -/
theorem exec_shape {i : Instr} {s t : State} (hi : i ≠ .dispCompose) (h : exec i s = .next t) : shape t = shape s := by
  cases i with
  | dispCompose => exact absurd rfl hi
  | accUnknownR a =>
    cases h
    exact shape_unknownAccess a false 0 s
  | accUnknownW a v =>
    cases h
    exact shape_unknownAccess a true v s
  | modelConstR a =>
    simp only [exec, execModelConstR] at h
    split at h <;> cases h <;> rfl
  | icTrigger id d =>
    cases h
    exact shape_trigger id d s
  | icEnableW v =>
    simp only [exec, execIcEnableW] at h
    split at h <;> cases h
    · exact shape_modLine _ _ s
    · rfl
  | icDisableW k v =>
    cases h
    exact shape_foldl shape_disableLine _ s
  | icTickWalk => exact shape_of_tickerStep (shape_tickWalk s) h
  | cfDmaIrq => exact shape_of_tickerStep (shape_cfIrqPhase s) h
  | cfDmaSlice => exact shape_of_tickerStep (shape_cfPhase s) h
  | tmrTick => exact shape_of_tickerStep (shape_timersAdvance s) h
  | hptTick => exact shape_of_tickerStep (shape_hptCompare s) h
  | tick => exact shape_of_tickerStep (shape_tickPhaseStep s) h
  | tmrCtrlW n v =>
    simp only [exec, execTmrCtrlW] at h
    split at h
    · split at h <;> cases h
      · exact (shape_modLine _ _ _).trans (shape_modTmr _ _ s)
      · exact shape_modTmr _ _ s
    · cases h
      exact shape_modTmr _ _ s
  | tmrReloadW n v =>
    cases h
    exact shape_modTmr _ _ s
  | hptCmpW n v | hptCtrlW n v =>
    cases h
    exact shape_modHpt _ _ s
  | hptStatusW v =>
    cases h
    simp [shape, hptClear]
  | dmaSrcW c v | dmaDstW c v | dmaCountW c v =>
    cases h
    exact shape_modDma _ _ s
  | dmaStart c v =>
    simp only [exec, execDmaStart] at h
    split at h <;> cases h
    · exact shape_dmaRun c s
    · rfl
  | edmRegW r ch v =>
    cases h
    exact shape_modEdmac _ _ s
  | edmStart ch v =>
    simp only [exec, execEdmStart] at h
    split at h
    · split at h <;> cases h
      · rfl
      · exact shape_modEdmac _ _ s
    · cases h
      rfl
  | chswRW second off v =>
    cases h
    exact shape_chswReadAssign _ off v s
  | chswWW second off v =>
    cases h
    exact shape_chswWriteAssign _ off v s
  | sdDmaregW r v | sdDmaregR r | cfDmaregW r v | cfDmaregR r => cases r <;> cases h <;> rfl
  | sdDmactrlW v =>
    cases h
    exact (shape_sdTryIrq _).trans (shape_sdTryData _)
  | sdIssue v =>
    simp only [exec, execSdIssue] at h
    split at h <;> cases h
    · exact ((shape_sdTryIrq _).trans (shape_sdTryData _)).trans (shape_sdCommand s)
    · rfl
  | sdIrqenW v =>
    cases h
    exact shape_sdTryIrq _
  | cfAtaR off =>
    cases h
    exact (shape_of_ideSignal (afterIde_cases _)).trans (shape_ideRead off s)
  | cfAtaW off v =>
    cases h
    exact shape_of_ideSignal (s := emit (.ideWrite off v) s) (t := afterIde _) (afterIde_cases _)
  | cfStatusR =>
    cases h
    exact shape_ideRead _ s
  | cfIdeDone =>
    cases h
    exact shape_of_ideSignal (ideCompleted_cases s)
  | cfDmaReq v =>
    simp only [exec, execCfDmaReq] at h
    split at h
    · cases h
      rfl
    · rename_i dir _
      split at h <;> cases h
      · exact shape_cfFlag dir s
      · rfl
  | pal4W i v | pal8W i v =>
    cases h
    simp [shape]
  | planeAddrW p v | planeAddrR p => cases p <;> cases h <;> rfl
  | flRead | flBusyRead | flUnlock1 | flUnlock2 | flCmdProgram | flCmdErase | flEraseUnlock1 | flEraseUnlock2
  | flChipErase | flBlockErase | flBypassEraseEntry | flBypassProgramEntry | flBypassChipErase | flBypassBlockErase
  | flProgramData | flBadCycle | flPassR | flPassW => exact exec_onBank_shape rfl h
  | _ =>
    cases h
    rfl

/-! ### The composite -/

/-- The first composite makes a surface of `BMP_H` rows; a later one keeps it (R356, R359). -/
theorem sinkResize_shape (s : State) :
    ∃ u c, sinkResize s = (s.withSurface u).withCalls c ∧
      (u.length = s.cfg.bmpH ∨ (s.disp.seenBmp ≠ none ∧ u = s.surface)) := by
  unfold sinkResize
  split
  · exact ⟨_, _, rfl, .inl (List.length_replicate ..)⟩
  · rename_i seen
    exact ⟨s.surface, s.calls, rfl, .inr ⟨by simpa using seen, rfl⟩⟩

/-- A redraw keeps the number of rows (R359, R360). -/
theorem sinkBlit_shape (dirty : List Nat) (row : Nat → List Word) (s : State) :
    ∃ u c, sinkBlit dirty row s = (s.withSurface u).withCalls c ∧ u.length = s.surface.length := by
  unfold sinkBlit
  split
  · exact ⟨_, _, rfl, List.length_mapIdx⟩
  · exact ⟨s.surface, s.calls, rfl, rfl⟩

theorem planeShape_planeRows (g : Guest) (a : Word) (pitch rows : Nat) :
    planeShape rows pitch (planeRows g a pitch rows) := by
  simp [planeShape, planeRows]

theorem planeShape_yuvRows {s : State} {p : List (List Byte)} (h : yuvRows s = some p) :
    planeShape s.cfg.yuvH s.cfg.yuvPitch p := by
  unfold yuvRows at h
  split at h <;> cases h
  exact planeShape_planeRows ..

/-- Everything a composite changes, with the rows of the surface it leaves (R359). -/
theorem compose_shape (s : State) :
    ∃ u c, compose s = (((s.withSurface u).withCalls c).withDisp
        { s.disp with seenBmp := some (bmpRows s), seenYuv := yuvRows s, invalidateAll := false }).withMem
          (s.mem.after (planeReads s)) ∧
      (u.length = s.cfg.bmpH ∨ (s.disp.seenBmp ≠ none ∧ u.length = s.surface.length)) := by
  obtain ⟨u, c, resized, rows⟩ := sinkResize_shape s
  obtain ⟨u', c', drawn, same⟩ := sinkBlit_shape (dirtyRows s (bmpRows s) (yuvRows s))
    (outputRow s (bmpRows s) (yuvRows s)) (sinkResize s)
  have length : u'.length = u.length := by rw [same, resized]; rfl
  refine ⟨u', c', ?_, ?_⟩
  · simp only [compose, drawn]
    rw [resized]
    rfl
  · rw [length]
    exact rows.imp_right fun ⟨seen, e⟩ => ⟨seen, congrArg List.length e⟩

theorem compose_keepsShape (s : State) : KeepsShape s (compose s) := by
  obtain ⟨u, c, e, rows⟩ := compose_shape s
  rw [e]
  refine ⟨rfl, fun hs => ?_, rfl⟩
  obtain ⟨lines, tmr, hpt, dma, edmac, readConn, writeConn, banks, pal4, pal8, -, -, surface⟩ := hs
  refine ⟨lines, tmr, hpt, dma, edmac, readConn, writeConn, banks, pal4, pal8, fun p hp => ?_, fun p hp => ?_,
    fun _ => ?_⟩
  · cases hp
    exact planeShape_planeRows s.mem s.disp.bmpAddr s.cfg.bmpPitch s.cfg.bmpH
  · exact planeShape_yuvRows (s := s) hp
  · show u.length = s.cfg.bmpH
    exact rows.elim id fun ⟨seen, kept⟩ => kept.trans (surface seen)

/-! ### Steps -/

theorem exec_keepsShape {i : Instr} {s t : State} (h : exec i s = .next t) : KeepsShape s t := by
  by_cases hi : i = .dispCompose
  · subst hi
    cases h
    exact compose_keepsShape s
  · exact .of_shape (exec_shape hi h)

/-- An owed trigger keeps the shape (R83, R403). -/
theorem shape_owed (q : TriggerCall) (rest : List TriggerCall) (u : State) :
    shape (orFatal u (trigger q.id q.delay (u.withAgents { u.agents with cpuQueue := rest }))) = shape u :=
  shape_orFatal (shape_trigger _ _ _)

/-- Settles O15: a composite makes planes and a surface of their configured sizes; every other operation, an owed trigger
and a move of the CPU collaborator keep the shape. -/
theorem shapesStay : Obligations.ShapesStay := by
  intro s t h
  obtain ⟨-, ⟨bytes, i, -, -, -, he⟩ | ⟨q, rest, u, -, hu, rfl⟩ | ⟨addr, bytes, -, rfl⟩ | ⟨pc, -, rfl⟩⟩ :=
    step_cases h
  · exact exec_keepsShape (s := popEvent s) he
  · have kept := shape_owed q rest u
    obtain rfl | rfl := hu <;> exact KeepsShape.of_shape kept
  · exact KeepsShape.of_shape rfl
  · exact KeepsShape.of_shape rfl

/-! ## The dispatcher's own operations (O25) -/

/-- The limiter after an unknown access: the address, and its count of consecutive accesses (R126). -/
theorem limited_eq (a : Word) (l : Limiter) :
    limited a l = ⟨some a, if l.lastUnknown = some a then l.count + 1 else 1⟩ := by
  unfold limited
  split
  · rename_i same
    rw [same]
  · rfl

/-- An unknown access counts in the limiter, and is logged up to the fifth repeat (R126). -/
theorem unknownAccess_eq {a : Word} {s : State} {n : Nat}
    (hn : n = if s.lim.lastUnknown = some a then s.lim.count + 1 else 1) (write : Bool) (v : Word) :
    unknownAccess a write v s =
      { s with
        lim := ⟨some a, n⟩
        calls := if n ≤ 5 then .log .unknown (.access a write v s.env.pc) :: s.calls else s.calls } := by
  have counted : limited a s.lim = ⟨some a, n⟩ := by rw [limited_eq, hn]
  simp only [unknownAccess, counted, State.withLim_lim, Config.logRepeatLimit]
  split <;> rfl

theorem exec_modelConstR {a c : Word} {s : State} (h : modelConstAt s.cfg a = some c) :
    exec (.modelConstR a) s = .next { s with ret := some c } := by
  simp only [exec, execModelConstR, h]
  rfl

/-- Settles O25: an unknown access counts in the limiter, and every other of these operations is one call of `answer` or
`wrote` on a state that has logged at most once. -/
theorem dispatcherAccesses : Obligations.DispatcherAccesses := by
  intro a v s
  refine ⟨fun n hn => ⟨?_, ?_⟩, rfl, rfl, rfl, rfl, rfl, fun c => exec_modelConstR⟩
  · exact congrArg (answer 0) (unknownAccess_eq hn false 0)
  · exact congrArg wrote (unknownAccess_eq hn true v)

end Sys2Proof.Proofs

namespace Sys2Proof.Proofs

open Sys2Proof.Machine

/-! ## The lines of the interrupt controller -/

/-- Beyond the lines there is only the idle record. -/
theorem lineAt_beyond {s : State} {j : Nat} (h : s.ic.line.length ≤ j) : lineAt s j = ⟨false, 0⟩ := by
  simp [lineAt, List.getElem?_eq_none h]

theorem lineAt_modLine_ne {id j : Nat} (h : j ≠ id) (f : Line → Line) (s : State) :
    lineAt (modLine id f s) j = lineAt s j := by
  simp [lineAt, modLine, List.getElem?_modify_ne _ _ (Ne.symm h)]

/-- A change of one line writes its changed record back. -/
theorem modLine_eq (id : Nat) (f : Line → Line) (s : State) :
    modLine id f s = { s with ic := { s.ic with line := s.ic.line.set id (f (lineAt s id)) } } := by
  rw [modLine, Laws.modify_eq_set _ _ _ ⟨false, 0⟩]
  rfl

theorem modLine_eq_self {id : Nat} {f : Line → Line} {s : State} (h : f (lineAt s id) = lineAt s id) :
    modLine id f s = s := by
  have kept : s.ic.line.modify id f = s.ic.line :=
    calc s.ic.line.modify id f
      _ = s.ic.line.set id (lineAt s id) := by rw [Laws.modify_eq_set _ _ _ ⟨false, 0⟩]; exact congrArg _ h
      _ = s.ic.line.modify id (fun l => l) := (Laws.modify_eq_set s.ic.line id (fun l => l) ⟨false, 0⟩).symm
      _ = s.ic.line := List.modify_id id s.ic.line
  rw [modLine, kept]
  rfl

/-- The lines of `ids` changed all at once. -/
def mapLines (ids : List Nat) (f : Line → Line) (ls : List Line) : List Line :=
  ls.mapIdx fun j l => if j ∈ ids then f l else l

theorem getElem?_mapLines (ids : List Nat) (f : Line → Line) (ls : List Line) (j : Nat) :
    (mapLines ids f ls)[j]? = ls[j]?.map fun l => if j ∈ ids then f l else l :=
  List.getElem?_mapIdx

@[simp] theorem length_mapLines (ids : List Nat) (f : Line → Line) (ls : List Line) :
    (mapLines ids f ls).length = ls.length := by simp [mapLines]

theorem mapLines_nil (f : Line → Line) (ls : List Line) : mapLines [] f ls = ls :=
  List.ext_getElem? fun j => by simp [getElem?_mapLines]

/-- Lines changed one after another, each once, are changed all at once. -/
theorem mapLines_modify {ids : List Nat} {id : Nat} (h : id ∉ ids) (f : Line → Line) (ls : List Line) :
    mapLines ids f (ls.modify id f) = mapLines (id :: ids) f ls := by
  apply List.ext_getElem?
  intro j
  rw [getElem?_mapLines, getElem?_mapLines, List.getElem?_modify]
  cases ls[j]? with
  | none => rfl
  | some l =>
    by_cases hj : id = j
    · subst hj
      simp [h]
    · simp [hj, Ne.symm hj]

theorem mapLines_eq_map {ids : List Nat} {ls : List Line} (h : ∀ j < ls.length, j ∈ ids) (f : Line → Line) :
    mapLines ids f ls = ls.map f := by
  apply List.ext_getElem
  · simp
  · intro j hj _
    simp [mapLines, h j (by simpa using hj)]

/-- The record of a line after the change; beyond the lines it stays the idle one when `f` keeps that. -/
theorem getD_mapLines {f : Line → Line} (h : f ⟨false, 0⟩ = ⟨false, 0⟩) (ids : List Nat) (ls : List Line) (j : Nat) :
    (mapLines ids f ls).getD j ⟨false, 0⟩ =
      if j ∈ ids then f (ls.getD j ⟨false, 0⟩) else ls.getD j ⟨false, 0⟩ := by
  rw [List.getD_eq_getElem?_getD, List.getD_eq_getElem?_getD, getElem?_mapLines]
  cases ls[j]? with
  | none => rw [Option.map_none, Option.getD_none, h, ite_self]
  | some l => rfl

/-! ## Triggers (O26) -/

/-- The record of a line just delivered, whose countdown was `d`: disabled, and the OS timer's re-armed while its
channel runs (R141, R187). -/
def deliveredLine (id : Nat) (d : Word) (s : State) : Line where
  enabled := false
  sched :=
    if id = s.cfg.osTimerIrq.toNat ∧ (tmrAt s s.cfg.osTimerCh).enabled = true then
      BitVec.ofNat 32 (max ((tmrAt s s.cfg.osTimerCh).reload.toNat / 256) 1)
    else d

/-- A delivery changes one line's record, the service and the CPU line, and calls `raise_irq()` once (R141). -/
theorem deliver_eq (id : Nat) (s : State) :
    deliver id s = { s with
      ic :=
        { line := s.ic.line.set id (deliveredLine id (lineAt s id).sched s)
          active := some ⟨id, s.ic.line.map (·.enabled)⟩
          irqLine := true }
      calls := .raiseIrq :: s.calls } := by
  have modified : deliver id s = emit .raiseIrq (s.withIc
      { line := s.ic.line.modify id fun l =>
          { enabled := false
            sched :=
              if id = s.cfg.osTimerIrq.toNat ∧ (tmrAt s s.cfg.osTimerCh).enabled = true then
                osDelay (tmrAt s s.cfg.osTimerCh).reload
              else l.sched }
        active := some ⟨id, enabledMask s⟩
        irqLine := true }) := by
    by_cases os : id = s.cfg.osTimerIrq.toNat
    · by_cases runs : (tmrAt s s.cfg.osTimerCh).enabled = true
      · simp only [deliver, os, runs, and_self, if_true]
        refine (if_pos runs).trans ?_
        simp only [osArm, setSched, modLine, emit, State.withIc, State.withCalls, List.modify_modify_eq]
        rfl
      · simp only [deliver, os, runs, if_true]
        exact if_neg runs
    · simp [deliver, os]
  rw [modified, Laws.modify_eq_set _ _ _ ⟨false, 0⟩, Laws.osDelay_eq]
  rfl

theorem lineAt_deliver {id : Nat} {s : State} (h : id < s.ic.line.length) :
    lineAt (deliver id s) id = deliveredLine id (lineAt s id).sched s := by
  rw [deliver_eq]
  simp [lineAt, h]

theorem lineAt_deliver_ne {id j : Nat} (h : j ≠ id) (s : State) : lineAt (deliver id s) j = lineAt s j := by
  rw [deliver_eq]
  simp [lineAt, List.getElem?_set_ne (Ne.symm h)]

theorem exec_icTrigger (id d : Word) (s : State) : exec (.icTrigger id d) s = .next (trigger id d s) := rfl

theorem trigger_delivers {id : Word} {s : State} (line : id.toNat < s.cfg.maxIrq)
    (enabled : (lineAt s id.toNat).enabled = true) (idle : s.ic.active = none) :
    trigger id 0 s = deliver id.toNat s := by
  rw [trigger, if_pos line, if_pos ⟨rfl, by simp [deliverable, enabled, idle]⟩]

theorem trigger_schedules {id d : Word} {s : State} (line : id.toNat < s.cfg.maxIrq)
    (waits : d ≠ 0 ∨ (lineAt s id.toNat).enabled = false ∨ s.ic.active ≠ none) :
    trigger id d s = setSched id.toNat (atLeastOne d) s := by
  obtain ⟨beyond, -⟩ | ⟨-, now, enabled, idle, -⟩ | ⟨-, -, e⟩ := trigger_cases id d s
  · omega
  · simp [now, enabled, idle] at waits
  · exact e

theorem trigger_beyond {id : Word} {s : State} (d : Word) (beyond : s.cfg.maxIrq ≤ id.toNat) :
    trigger id d s = raiseFatal (.irqIdOutOfRange id) s := if_neg (by omega)

namespace Interrupts

/-- Settles O26: each clause is one outcome of `trigger`, and the delivery is `deliver_eq`. -/
theorem trigger : Obligations.Trigger := by
  intro id d s
  refine ⟨fun line enabled idle => ?_, fun line waits => ?_, fun beyond => ?_⟩
  · have os : id.toNat = s.cfg.osTimerIrq.toNat ↔ id = s.cfg.osTimerIrq := BitVec.toNat_inj
    rw [exec_icTrigger, trigger_delivers line enabled idle, deliver_eq]
    simp only [deliveredLine, os]
  · rw [exec_icTrigger, trigger_schedules line waits, setSched, modLine_eq, Laws.atLeastOne_eq]
  · rw [exec_icTrigger, trigger_beyond d beyond]
    rfl

end Interrupts

/-! ## The acknowledge (O27) -/

/-- The value of IC_CURRENT, over the integers (R94). -/
theorem irqIdValue_eq (c : Cfg) (id : Nat) : irqIdValue c id = BitVec.ofNat 32 (id * 2 ^ c.irqIdShift) := by
  apply BitVec.eq_of_toNat_eq
  simp [irqIdValue, BitVec.toNat_shiftLeft, Nat.shiftLeft_eq, Nat.mod_mul_mod]

theorem exec_icAck (s : State) : exec .icAck s = answer (currentIrq s) (acknowledge s) := rfl

namespace Interrupts

/-- Settles O27: the first read ends the service, so the second one finds no line in service. -/
theorem acknowledge : Obligations.Acknowledge := by
  intro s
  refine ⟨_, rfl, ?_, rfl⟩
  rw [exec_icAck, currentIrq]
  cases s.ic.active with
  | none => rfl
  | some x => exact congrArg (answer · (Machine.acknowledge s)) (irqIdValue_eq s.cfg x.id)

end Interrupts

/-! ## IC_ENABLE and IC_DISABLE (O28) -/

/-- A mask names the lines of its instance whose bit is set (R94). -/
theorem mem_maskLines {maxIrq k j : Nat} {v : Word} :
    j ∈ maskLines maxIrq k v ↔
      32 * k ≤ j ∧ j < 32 * k + 32 ∧ v.getLsbD (j - 32 * k) = true ∧ j < maxIrq := by
  simp only [maskLines, List.mem_map, List.mem_filter, List.mem_range, Bool.and_eq_true, decide_eq_true_eq]
  constructor
  · rintro ⟨i, ⟨hi, bit, line⟩, rfl⟩
    exact ⟨by omega, by omega, by simpa using bit, line⟩
  · rintro ⟨lo, hi, bit, line⟩
    exact ⟨j - 32 * k, ⟨by omega, bit, by omega⟩, by omega⟩

theorem nodup_maskLines (maxIrq k : Nat) (v : Word) : (maskLines maxIrq k v).Nodup :=
  (List.nodup_range.filter _).map fun _ _ h => by simpa using h

/-- The line in service is one of `ids`. -/
def servesOneOf (ids : List Nat) (s : State) : Bool := s.ic.active.any fun x => decide (x.id ∈ ids)

theorem servesOneOf_iff {ids : List Nat} {s : State} :
    servesOneOf ids s = true ↔ ∃ x, s.ic.active = some x ∧ x.id ∈ ids := by
  simp [servesOneOf, Option.any_eq_true]

/-- The lines of `ids` disabled all at once, and the CPU line lowered once if the line in service is among them
(R147). -/
def disableLines (ids : List Nat) (s : State) : State :=
  { s with
    ic :=
      { s.ic with
        line := mapLines ids (fun l => { l with enabled := false }) s.ic.line
        irqLine := s.ic.irqLine && !servesOneOf ids s }
    calls := if servesOneOf ids s = true then .lowerIrq :: s.calls else s.calls }

theorem disableLines_nil (s : State) : disableLines [] s = s := by
  have unserved : servesOneOf [] s = false := by cases h : s.ic.active <;> simp [servesOneOf, h]
  simp [disableLines, mapLines_nil, unserved]

/-- One line disabled, then the others. -/
theorem disableLines_disableLine {ids : List Nat} {id : Nat} (h : id ∉ ids) (s : State) :
    disableLines ids (disableLine s id) = disableLines (id :: ids) s := by
  by_cases here : s.ic.active.map (·.id) = some id
  · obtain ⟨x, active, rfl⟩ := Option.map_eq_some_iff.mp here
    have first : disableLine s x.id = { s with
        ic := { s.ic with
          line := s.ic.line.modify x.id fun l => { l with enabled := false }
          irqLine := false }
        calls := .lowerIrq :: s.calls } := if_pos here
    simp [first, disableLines, mapLines_modify h, servesOneOf, active, h]
  · have first : disableLine s id = setEnabled id false s := if_neg here
    have others : servesOneOf (id :: ids) s = servesOneOf ids s := by
      cases active : s.ic.active with
      | none => simp [servesOneOf, active]
      | some x => simp_all [servesOneOf]
    rw [first, disableLines, disableLines, others, ← mapLines_modify h]
    rfl

theorem foldl_disableLine {ids : List Nat} (h : ids.Nodup) (s : State) :
    ids.foldl disableLine s = disableLines ids s := by
  induction ids generalizing s with
  | nil => exact (disableLines_nil s).symm
  | cons id ids ih =>
    obtain ⟨new, rest⟩ := List.nodup_cons.mp h
    rw [List.foldl_cons, ih rest, disableLines_disableLine new]

theorem exec_icDisableW (k : Nat) (v : Word) (s : State) :
    exec (.icDisableW k v) s = .next { disableLines (maskLines s.cfg.maxIrq k v) s with ret := some 0 } :=
  congrArg wrote (foldl_disableLine (nodup_maskLines ..) s)

theorem exec_icEnableW (v : Word) (s : State) :
    exec (.icEnableW v) s =
      if v.toNat < s.cfg.maxIrq then wrote (setEnabled v.toNat true s)
      else wrote (logEvent .unmodeled (.icEnable v s.env.pc) s) := rfl

/-- Settles O28: the lines of a mask are distinct, so disabling them one by one disables them all at once. -/
theorem enableAndDisable : Obligations.EnableAndDisable := by
  intro k v s
  refine ⟨fun line => ?_, fun beyond => ?_, _, exec_icDisableW k v s, fun j => ?_, rfl, length_mapLines .., ?_, ?_, rfl⟩
  · rw [exec_icEnableW, if_pos line, setEnabled, modLine_eq]
    rfl
  · rw [exec_icEnableW, if_neg (by omega)]
    rfl
  · simp only [← mem_maskLines]
    exact getD_mapLines rfl (maskLines s.cfg.maxIrq k v) s.ic.line j
  · intro x active lo hi bit line
    have serves : servesOneOf (maskLines s.cfg.maxIrq k v) s = true :=
      servesOneOf_iff.mpr ⟨x, active, mem_maskLines.mpr ⟨lo, hi, bit, line⟩⟩
    simp [disableLines, serves]
  · intro unnamed
    have serves : servesOneOf (maskLines s.cfg.maxIrq k v) s = false := by
      rw [Bool.eq_false_iff, Ne, servesOneOf_iff]
      rintro ⟨x, active, named⟩
      exact unnamed x active (mem_maskLines.mp named)
    simp [disableLines, serves]

/-! ## The tick walk -/

/-- What a walk does to the record of a line it does not deliver (R149). -/
def countLine (l : Line) : Line := { l with sched := if 1 < l.sched then l.sched - 1 else l.sched }

theorem countLine_eq_ite (l : Line) : countLine l = if 1 < l.sched then { l with sched := l.sched - 1 } else l := by
  unfold countLine
  split <;> rfl

/-- The walk delivers this line when it comes to it (R149). -/
def Ready (s : State) (id : Nat) : Prop :=
  s.ic.active = none ∧ (lineAt s id).enabled = true ∧ (lineAt s id).sched = 1

theorem walkLine_of_ready {s : State} {id : Nat} (h : Ready s id) : walkLine s id = deliver id (setSched id 0 s) := by
  obtain ⟨idle, enabled, due⟩ := h
  rw [walkLine, if_neg (by rw [due]; decide), if_pos ⟨due, by simp [deliverable, enabled, idle]⟩]

theorem walkLine_of_not_ready {s : State} {id : Nat} (h : ¬ Ready s id) : walkLine s id = modLine id countLine s := by
  obtain ⟨above, e⟩ | ⟨due, enabled, idle, -⟩ | ⟨low, -, e⟩ := walkLine_cases s id
  · rw [e, setSched, modLine_eq, modLine_eq, countLine, if_pos above]
  · exact absurd ⟨idle, enabled, due⟩ h
  · rw [e, modLine_eq_self (by rw [countLine, if_neg low])]

/-- The lines of `ids` counted down all at once. -/
def countLines (ids : List Nat) (s : State) : State :=
  s.withIc { s.ic with line := mapLines ids countLine s.ic.line }

theorem lineAt_countLines (ids : List Nat) (s : State) (j : Nat) :
    lineAt (countLines ids s) j = if j ∈ ids then countLine (lineAt s j) else lineAt s j :=
  getD_mapLines rfl ids s.ic.line j

theorem enabledMask_countLines (ids : List Nat) (s : State) : enabledMask (countLines ids s) = enabledMask s := by
  apply List.ext_getElem?
  intro j
  simp only [enabledMask, countLines, State.withIc_ic, List.getElem?_map, getElem?_mapLines]
  cases s.ic.line[j]? with
  | none => rfl
  | some l => by_cases hj : j ∈ ids <;> simp [hj, countLine]

theorem enabledMask_setSched (id : Nat) (d : Word) (s : State) : enabledMask (setSched id d s) = enabledMask s := by
  apply List.ext_getElem?
  intro j
  simp only [enabledMask, setSched, modLine, State.withIc_ic, List.getElem?_map, List.getElem?_modify]
  cases s.ic.line[j]? with
  | none => rfl
  | some l => by_cases hj : id = j <;> simp [hj]

/-- A walk over distinct lines of which none is ready counts them down: what it does to one line makes no other
ready. -/
theorem foldl_walkLine {ids : List Nat} (distinct : ids.Nodup) {s : State} (h : ∀ id ∈ ids, ¬ Ready s id) :
    ids.foldl walkLine s = countLines ids s := by
  induction ids generalizing s with
  | nil => rw [List.foldl_nil, countLines, mapLines_nil]; rfl
  | cons id ids ih =>
    obtain ⟨new, rest⟩ := List.nodup_cons.mp distinct
    have still : ∀ j ∈ ids, ¬ Ready (modLine id countLine s) j := by
      intro j hj
      have other : j ≠ id := fun e => new (e ▸ hj)
      rw [Ready, lineAt_modLine_ne other]
      exact h j (List.mem_cons_of_mem id hj)
    rw [List.foldl_cons, walkLine_of_not_ready (h id List.mem_cons_self), ih rest still, countLines, countLines,
      ← mapLines_modify new]
    rfl

/-- The order of the walk: the OS timer's line is last, the others go down (R148). -/
theorem walkOrder_pairwise (c : Cfg) :
    (walkOrder c).Pairwise fun i j => i ≠ c.osTimerIrq.toNat ∧ (j < i ∨ j = c.osTimerIrq.toNat) := by
  have down : (List.range c.maxIrq).reverse.Pairwise fun i j => j < i :=
    List.pairwise_reverse.mpr List.pairwise_lt_range
  refine List.pairwise_append.mpr ⟨?_, List.pairwise_singleton _ _, ?_⟩
  · exact (down.filter _).imp_of_mem fun hi _ lt => ⟨by simpa using (List.mem_filter.mp hi).2, .inl lt⟩
  · intro i hi j hj
    exact ⟨by simpa using (List.mem_filter.mp hi).2, .inr (List.mem_singleton.mp hj)⟩

theorem walkOrder_nodup (c : Cfg) : (walkOrder c).Nodup :=
  (walkOrder_pairwise c).imp fun ⟨notOs, later⟩ e => later.elim (fun lt => by omega) (fun os => notOs (e ▸ os))

theorem mem_walkOrder {c : Cfg} {j : Nat} (h : j < c.maxIrq) : j ∈ walkOrder c := by
  by_cases os : j = c.osTimerIrq.toNat <;> simp [walkOrder, os, h]

theorem walkLine_fatal (s : State) (id : Nat) : (walkLine s id).fatal = s.fatal := by
  obtain ⟨-, e⟩ | ⟨-, -, -, e⟩ | ⟨-, -, e⟩ := walkLine_cases s id
  · rw [e, setSched_fatal]
  · rw [e, deliver_fatal, setSched_fatal]
  · rw [e]

theorem tickWalk_fatal (s : State) : (tickWalk s).fatal = s.fatal :=
  foldl_keeps (P := fun u => u.fatal = s.fatal) (fun u id hu => (walkLine_fatal u id).trans hu) _ rfl

theorem exec_icTickWalk {s : State} (running : s.agents.cpuHalted = false) (safe : s.fatal = none) :
    exec .icTickWalk s = .next (tickWalk s) :=
  (tickerStep_eq_next tickWalk s _).mpr ⟨running, safe, (orFatal_none (by rw [tickWalk_fatal, safe])).symm⟩

/-! ### A walk that delivers nothing (O29) -/

/-- A walk that finds no line ready counts every line down (R149). -/
theorem tickWalk_of_not_ready {s : State} (lines : s.ic.line.length = s.cfg.maxIrq) (h : ∀ j, ¬ Ready s j) :
    tickWalk s = { s with ic := { s.ic with line := s.ic.line.map countLine } } := by
  rw [tickWalk, foldl_walkLine (walkOrder_nodup _) (fun j _ => h j), countLines,
    mapLines_eq_map fun j hj => mem_walkOrder (lines ▸ hj)]
  rfl

theorem lineAt_tickWalk_of_not_ready {s : State} (lines : s.ic.line.length = s.cfg.maxIrq) (h : ∀ j, ¬ Ready s j)
    (j : Nat) : lineAt (tickWalk s) j = countLine (lineAt s j) := by
  rw [tickWalk_of_not_ready lines h]
  exact List.getD_map s.ic.line ⟨false, 0⟩ countLine

/-- Settles O29: with a line in service, or none at 1, no line is ready. -/
theorem tickWalkCountsDown : Obligations.TickWalkCountsDown := by
  intro s running safe lines blocked
  have unready : ∀ j, ¬ Ready s j := by
    rintro j ⟨idle, due⟩
    exact blocked.elim (fun busy => busy idle) (fun none => none j due)
  rw [exec_icTickWalk running safe, tickWalk_of_not_ready lines unready]
  simp only [funext countLine_eq_ite]

/-! ### A walk that delivers (O30) -/

/-- No other ready line comes before this one in the walk (R148). -/
def First (s : State) (id : Nat) : Prop :=
  ∀ j, Ready s j → j ≠ id → j = s.cfg.osTimerIrq.toNat ∨ (j < id ∧ id ≠ s.cfg.osTimerIrq.toNat)

/-- The walk counts the lines before the delivered one down, delivers it, and counts the lines after it down. -/
theorem tickWalk_of_ready {s : State} {id : Nat} (lines : s.ic.line.length = s.cfg.maxIrq) (ready : Ready s id)
    (first : First s id) :
    ∃ pre post, walkOrder s.cfg = pre ++ id :: post ∧
      tickWalk s = countLines post (deliver id (setSched id 0 (countLines pre s))) := by
  have walked : id ∈ walkOrder s.cfg := mem_walkOrder (lines ▸ lt_length_of_enabled ready.2.1)
  obtain ⟨pre, post, order⟩ := List.append_of_mem walked
  have sorted := order ▸ walkOrder_pairwise s.cfg
  have distinct := order ▸ walkOrder_nodup s.cfg
  obtain ⟨distinctPre, distinctRest, disjoint⟩ := List.nodup_append.mp distinct
  obtain ⟨-, distinctPost⟩ := List.nodup_cons.mp distinctRest
  have before : ∀ j ∈ pre, ¬ Ready s j := by
    intro j hj due
    obtain ⟨notOs, later⟩ := (List.pairwise_append.mp sorted).2.2 j hj id List.mem_cons_self
    obtain os | ⟨lower, other⟩ := first j due (disjoint j hj id List.mem_cons_self)
    · exact notOs os
    · exact later.elim (fun lt => by omega) other
  have still : Ready (countLines pre s) id := by
    have new : id ∉ pre := fun h => disjoint id h id List.mem_cons_self rfl
    rw [Ready, lineAt_countLines, if_neg new]
    exact ready
  have after : ∀ u : State, ∀ j ∈ post, ¬ Ready (deliver id u) j := fun u j _ due => by
    simp [Ready, deliver_active] at due
  refine ⟨pre, post, order, ?_⟩
  rw [tickWalk, order, List.foldl_append, foldl_walkLine distinctPre before, List.foldl_cons, walkLine_of_ready still,
    foldl_walkLine distinctPost (after _)]

section

variable {s : State} {id : Nat} (lines : s.ic.line.length = s.cfg.maxIrq) (ready : Ready s id) (first : First s id)

include lines ready first

theorem tickWalk_active_of_ready : (tickWalk s).ic.active = some ⟨id, s.ic.line.map (·.enabled)⟩ := by
  obtain ⟨pre, post, -, e⟩ := tickWalk_of_ready lines ready first
  rw [e]
  exact (deliver_active ..).trans (by rw [enabledMask_setSched, enabledMask_countLines]; rfl)

/-- Beside the interrupt controller, a walk that delivers calls `raise_irq()` once. -/
theorem tickWalk_frame_of_ready :
    tickWalk s = { s with ic := (tickWalk s).ic, calls := .raiseIrq :: s.calls } ∧ (tickWalk s).ic.irqLine = true := by
  obtain ⟨pre, post, -, e⟩ := tickWalk_of_ready lines ready first
  rw [e, deliver_eq]
  exact ⟨rfl, rfl⟩

/-- The delivered line's countdown is 0, unless it is the OS timer's and re-arms. -/
theorem lineAt_tickWalk_of_ready : lineAt (tickWalk s) id = deliveredLine id 0 s := by
  obtain ⟨pre, post, order, e⟩ := tickWalk_of_ready lines ready first
  have once : id ∉ post := (List.nodup_cons.mp (order ▸ walkOrder_nodup s.cfg).of_append_right).1
  have line : id < (countLines pre s).ic.line.length :=
    (length_mapLines ..).symm ▸ lt_length_of_enabled ready.2.1
  have cleared : (lineAt (setSched id 0 (countLines pre s)) id).sched = 0 := by
    rw [setSched, lineAt_modLine id id _ _ line, if_pos rfl]
  rw [e, lineAt_countLines, if_neg once, lineAt_deliver (by simpa using line), cleared]
  rfl

/-- Every other line is counted down, before the delivery or after it. -/
theorem lineAt_tickWalk_of_ready_ne {j : Nat} (other : j ≠ id) : lineAt (tickWalk s) j = countLine (lineAt s j) := by
  obtain ⟨pre, post, order, e⟩ := tickWalk_of_ready lines ready first
  obtain ⟨-, -, disjoint⟩ := List.nodup_append.mp (order ▸ walkOrder_nodup s.cfg)
  rw [e, lineAt_countLines, lineAt_deliver_ne other, setSched, lineAt_modLine_ne other, lineAt_countLines]
  by_cases line : j < s.cfg.maxIrq
  · have walked : j ∈ pre ++ id :: post := order ▸ mem_walkOrder line
    obtain before | after : j ∈ pre ∨ j ∈ post := by simpa [other] using walked
    · have once : j ∉ post := fun h => disjoint j before j (List.mem_cons_of_mem id h) rfl
      rw [if_neg once, if_pos before]
    · have once : j ∉ pre := fun h => disjoint j h j (List.mem_cons_of_mem id after) rfl
      rw [if_pos after, if_neg once]
  · have idle : countLine ⟨false, 0⟩ = ⟨false, 0⟩ := rfl
    simp only [lineAt_beyond (lines ▸ Nat.le_of_not_lt line), idle, ite_self]

end

/-- Settles O30: the given line is the first ready one of the walk's order. -/
theorem tickWalkDelivers : Obligations.TickWalkDelivers := by
  intro s id running safe lines idle enabled due ahead
  have ready : Ready s id := ⟨idle, enabled, due⟩
  have first : First s id := fun j hj other => ahead j hj.2.1 hj.2.2 other
  obtain ⟨frame, level⟩ := tickWalk_frame_of_ready lines ready first
  exact ⟨tickWalk s, exec_icTickWalk running safe, frame, tickWalk_active_of_ready lines ready first, level,
    fun j other => lineAt_tickWalk_of_ready_ne lines ready first other, lineAt_tickWalk_of_ready lines ready first⟩

/-! ### A countdown over several walks (O31) -/

/-- Line `id` is pending at `d`, can be delivered, and no other line can. -/
structure Pending (id d : Nat) (s : State) : Prop where
  lines : s.ic.line.length = s.cfg.maxIrq
  idle : s.ic.active = none
  enabled : (lineAt s id).enabled = true
  sched : (lineAt s id).sched.toNat = d
  alone : ∀ j, j ≠ id → (lineAt s j).enabled = false ∨ (lineAt s j).sched = 0

theorem Pending.not_ready {id d j : Nat} {s : State} (h : Pending id d s) (other : j ≠ id) : ¬ Ready s j := by
  rintro ⟨-, enabled, due⟩
  have := h.alone j other
  simp [enabled, due] at this

/-- A walk takes a countdown above 1 down by one. -/
theorem Pending.tickWalk {id d : Nat} {s : State} (h : Pending id (d + 2) s) : Pending id (d + 1) (tickWalk s) := by
  have above : 1 < (lineAt s id).sched := by
    have := h.sched
    bv_omega
  have unready : ∀ j, ¬ Ready s j := by
    intro j
    by_cases here : j = id
    · rintro ⟨-, -, due⟩
      rw [here] at due
      simp [due] at above
    · exact h.not_ready here
  have counted := lineAt_tickWalk_of_not_ready h.lines unready
  refine ⟨?_, ?_, ?_, ?_, fun j other => ?_⟩
  · simpa [tickWalk_of_not_ready h.lines unready] using h.lines
  · simpa [tickWalk_of_not_ready h.lines unready] using h.idle
  · rw [counted]
    exact h.enabled
  · have := h.sched
    rw [counted, countLine, if_pos above]
    bv_omega
  · rw [counted]
    refine (h.alone j other).imp_right fun zero => ?_
    simp [countLine, zero]

/-- The walk that finds the countdown at 1 delivers the line. -/
theorem Pending.delivered {id : Nat} {s : State} (h : Pending id 1 s) :
    (Machine.tickWalk s).ic.active.map (·.id) = some id ∧ (Machine.tickWalk s).ic.irqLine = true := by
  have ready : Ready s id := ⟨h.idle, h.enabled, BitVec.eq_of_toNat_eq h.sched⟩
  have first : First s id := fun j due other => absurd due (h.not_ready other)
  exact ⟨by rw [tickWalk_active_of_ready h.lines ready first]; rfl, (tickWalk_frame_of_ready h.lines ready first).2⟩

theorem Pending.tickWalks {id d k : Nat} {s : State} (h : Pending id d s) (hk : k < d) :
    Pending id (d - k) (tickWalks k s) := by
  induction k generalizing s d with
  | zero => exact h
  | succ k ih =>
    obtain ⟨d, rfl⟩ : ∃ e, d = e + 2 := ⟨d - 2, by omega⟩
    have := ih h.tickWalk (by omega)
    rwa [show d + 1 - k = d + 2 - (k + 1) by omega] at this

theorem tickWalks_succ (k : Nat) (s : State) : tickWalks (k + 1) s = tickWalk (tickWalks k s) := by
  induction k generalizing s with
  | zero => rfl
  | succ k ih => exact ih (tickWalk s)

/-- Settles O31: after `d - 1` walks the countdown is at 1, and the next walk delivers it. -/
theorem countdownIsExact : Obligations.CountdownIsExact := by
  intro s id d lines idle positive enabled sched alone
  have pending : Pending id d s := ⟨lines, idle, enabled, sched, alone⟩
  refine ⟨fun k hk => ⟨(pending.tickWalks hk).idle, (pending.tickWalks hk).sched⟩, ?_⟩
  obtain ⟨k, rfl⟩ : ∃ k, d = k + 1 := ⟨d - 1, by omega⟩
  have last : Pending id 1 (tickWalks k s) := by simpa using pending.tickWalks (Nat.lt_succ_self k)
  rw [tickWalks_succ]
  exact last.delivered

end Sys2Proof.Proofs

namespace Sys2Proof.Proofs

open Sys2Proof.Machine

/-! ## The timers and the HPTimers -/

/-- A change of one timer channel writes its changed record back. -/
theorem modTmr_eq (n : Nat) (f : TimerChannel → TimerChannel) (s : State) :
    modTmr n f s = { s with tmr := s.tmr.set n (f (tmrAt s n)) } := by
  rw [modTmr, Laws.modify_eq_set _ _ _ ⟨false, 0, 0⟩]
  rfl

/-- A change of one HPTimer channel writes its changed record back. -/
theorem modHpt_eq (n : Nat) (f : HptChannel → HptChannel) (s : State) :
    modHpt n f s = { s with hpt := s.hpt.set n (f (hptAt s n)) } := by
  rw [modHpt, Laws.modify_eq_set _ _ _ ⟨false, 0, false⟩]
  rfl

theorem tmrAt_modTmr {n : Nat} {s : State} (h : n < s.tmr.length) (f : TimerChannel → TimerChannel) :
    tmrAt (modTmr n f s) n = f (tmrAt s n) := by
  rw [modTmr_eq]
  simp [tmrAt, h]

/-- Only a channel that exists is active. -/
theorem lt_length_of_active {s : State} {n : Nat} (h : (hptAt s n).active = true) : n < s.hpt.length := by
  by_contra beyond
  simp [hptAt, List.getElem?_eq_none (Nat.le_of_not_lt beyond)] at h

/-- A ticker step of a running machine that finds no violation is its effect (R370, R403). -/
theorem tickerStep_of_safe {f : State → State} {s : State} (running : s.agents.cpuHalted = false)
    (safe : s.fatal = none) (sound : (f s).fatal = none) : tickerStep f s = .next (f s) :=
  (tickerStep_eq_next f s _).mpr ⟨running, safe, (orFatal_none sound).symm⟩

/-! ### The plain registers (O32) -/

/-- Settles O32: a read is an `answer`, and a write stores one channel's record. -/
theorem timerRegisters : Obligations.TimerRegisters := by
  intro n v s
  refine ⟨?_, rfl, rfl, rfl, rfl, ?_, rfl, ?_, rfl⟩
  · exact congrArg wrote (modTmr_eq n _ s)
  · exact congrArg wrote (modHpt_eq n _ s)
  · exact congrArg wrote (modHpt_eq n _ s)

/-! ### Start and stop (O33) -/

theorem exec_tmrCtrlW_start {v : Word} (n : Nat) (s : State) (start : v.getLsbD 0 = true) :
    exec (.tmrCtrlW n v) s =
      wrote (if n = s.cfg.osTimerCh then osArm (modTmr n (fun t => { t with enabled := true }) s)
        else modTmr n (fun t => { t with enabled := true }) s) := if_pos start

theorem exec_tmrCtrlW_stop {v : Word} (n : Nat) (s : State) (stop : v.getLsbD 0 = false) :
    exec (.tmrCtrlW n v) s = wrote (modTmr n (fun t => { t with enabled := false }) s) :=
  if_neg (Bool.eq_false_iff.mp stop)

/-- Arming the OS line sets its countdown to the reload value over 256, at least 1 (R98, R186). -/
theorem osArm_eq (s : State) :
    osArm s = { s with
      ic := { s.ic with
        line := s.ic.line.set s.cfg.osTimerIrq.toNat
          { lineAt s s.cfg.osTimerIrq.toNat with
            sched := BitVec.ofNat 32 (max ((tmrAt s s.cfg.osTimerCh).reload.toNat / 256) 1) } } } := by
  rw [osArm, setSched, modLine_eq, Laws.osDelay_eq]

/-- Settles O33: the arm reads the reload value after the start, which leaves it. -/
theorem timerStartStop : Obligations.TimerStartStop := by
  intro n v s channel
  refine ⟨fun start other => ?_, fun start os => ?_, fun stop => ?_⟩
  · rw [exec_tmrCtrlW_start n s start, if_neg other, modTmr_eq]
    rfl
  · have reload : (tmrAt (modTmr n (fun t => { t with enabled := true }) s) s.cfg.osTimerCh).reload
        = (tmrAt s n).reload := by rw [← os, tmrAt_modTmr channel]
    rw [exec_tmrCtrlW_start n s start, if_pos os, osArm_eq, modTmr_cfg, reload, modTmr_eq]
    rfl
  · rw [exec_tmrCtrlW_stop n s stop, modTmr_eq]
    rfl

/-! ### The timer tick (O34) -/

theorem exec_tmrTick {s : State} (running : s.agents.cpuHalted = false) (safe : s.fatal = none) :
    exec .tmrTick s = .next (timersAdvance s) :=
  tickerStep_of_safe running safe safe

theorem tmrAt_timersAdvance (s : State) (n : Nat) : tmrAt (timersAdvance s) n = timerTicked s.cfg (tmrAt s n) :=
  List.getD_map s.tmr ⟨false, 0, 0⟩ (timerTicked s.cfg)

/-- The clock's modulus fits in a word, so its advance is the one over the integers (R180). -/
theorem clockNext_toNat {c : Cfg} (hc : c.timersOk = true) (x : Word) :
    (clockNext c x).toNat = (x.toNat + c.clockStep) % c.clockMod := by
  obtain ⟨-, -, pos, -, fits⟩ := (timersOk_iff c).1 hc
  rw [clockNext, BitVec.toNat_ofNat, Nat.mod_eq_of_lt (lt_of_lt_of_le (Nat.mod_lt _ pos) fits)]

/-- A value that does not exceed the reload value fits in a word (R181). -/
theorem timerNext_toNat (c : Cfg) (t : TimerChannel) :
    (timerNext c t).toNat =
      if t.reload.toNat < t.current.toNat + c.clockStep then 0 else t.current.toNat + c.clockStep := by
  unfold timerNext
  split
  · rfl
  · rw [BitVec.toNat_ofNat, Nat.mod_eq_of_lt (by omega)]

theorem timerTicked_enabled (c : Cfg) (t : TimerChannel) : (timerTicked c t).enabled = t.enabled := by
  unfold timerTicked
  split <;> rfl

theorem timerTicked_reload (c : Cfg) (t : TimerChannel) : (timerTicked c t).reload = t.reload := by
  unfold timerTicked
  split <;> rfl

theorem timerTicked_current (c : Cfg) (t : TimerChannel) :
    (timerTicked c t).current = if t.enabled = true then timerNext c t else t.current := by
  unfold timerTicked
  split <;> rfl

namespace Timers

/-- Settles O34: every channel is ticked on its own, and neither advance leaves the 32 bits. -/
theorem timersAdvance : Obligations.TimersAdvance := by
  intro s running safe
  refine ⟨_, exec_tmrTick running safe, rfl, List.length_map _, fun ok => clockNext_toNat ok s.clock, fun n _ => ?_⟩
  rw [tmrAt_timersAdvance]
  refine ⟨timerTicked_enabled .., timerTicked_reload .., ?_⟩
  rw [timerTicked_current, apply_ite BitVec.toNat, timerNext_toNat]

end Timers

/-! ### The HPTimer latches (O35) -/

theorem getLsbD_bitMask (n i : Nat) : (bitMask n).getLsbD i = (decide (n < 32) && decide (n = i)) :=
  BitVec.getLsbD_twoPow n i

/-- Flags put together, each at the bit of its number. -/
theorem getLsbD_foldl_bitMask (p : Nat → Bool) (ns : List Nat) (a : Word) (i : Nat) :
    (ns.foldl (fun acc n => acc ||| (if p n then bitMask n else 0)) a).getLsbD i =
      (a.getLsbD i || (decide (i < 32) && decide (i ∈ ns) && p i)) := by
  induction ns generalizing a with
  | nil => simp
  | cons n ns ih =>
    have flag : (if p n then bitMask n else 0).getLsbD i = (decide (i < 32) && decide (i = n) && p i) := by
      by_cases here : n = i
      · subst here
        cases p n <;> simp [getLsbD_bitMask]
      · cases p n <;> simp [getLsbD_bitMask, here, Ne.symm here]
    rw [List.foldl_cons, ih, BitVec.getLsbD_or, flag, Bool.eq_iff_iff]
    simp only [List.mem_cons, Bool.or_eq_true, Bool.and_eq_true, decide_eq_true_eq]
    tauto

/-- HPT_STATUS shows the latch of channel `n` at bit `n`, and no other bit (R194). -/
theorem getLsbD_hptStatus (s : State) (n : Nat) :
    (hptStatus s.hpt).getLsbD n = (decide (n < 8) && (hptAt s n).triggered) := by
  have latch : (s.hpt[n]?.map (·.triggered)).getD false = (hptAt s n).triggered := by
    rw [hptAt, List.getD_eq_getElem?_getD]
    cases s.hpt[n]? <;> rfl
  rw [hptStatus, getLsbD_foldl_bitMask fun n => (s.hpt[n]?.map (·.triggered)).getD false, latch]
  by_cases register : n < 8
  · have word : n < 32 := by omega
    simp [Config.nHpt, register, word]
  · simp [Config.nHpt, register]

theorem hptAt_hptClear (v : Word) (s : State) (n : Nat) :
    hptAt (s.withHpt (hptClear v s.hpt)) n =
      if n < 8 ∧ v.getLsbD n = true then { hptAt s n with triggered := false } else hptAt s n := by
  simp only [hptAt, hptClear, State.withHpt_hpt, List.getD_eq_getElem?_getD, List.getElem?_mapIdx, Bool.and_eq_true,
    decide_eq_true_eq]
  cases s.hpt[n]? with
  | none => exact (ite_self _).symm
  | some ch => rfl

theorem exec_hptTick {s : State} (running : s.agents.cpuHalted = false) (safe : s.fatal = none) :
    exec .hptTick s = .next (hptCompare s) :=
  tickerStep_of_safe running safe safe

theorem hptAt_hptCompare (s : State) (n : Nat) :
    hptAt (hptCompare s) n = hptCompared s.cfg s.clock (hptAt s n) :=
  List.getD_map s.hpt ⟨false, 0, false⟩ (hptCompared s.cfg s.clock)

/-- A match sets the latch, and deactivates a one-shot channel (R193). -/
theorem hptCompared_eq_ite (c : Cfg) (clock : Word) (ch : HptChannel) :
    hptCompared c clock ch =
      if ch.active = true ∧ ch.ocv = clock then ⟨!c.hptOneshot, ch.ocv, true⟩ else ch := by
  simp only [hptCompared, hptMatches, Bool.and_eq_true, beq_iff_eq]

/-- Settles O35: the status word by its bits, and the write and the tick channel by channel; only a channel that exists
is active. -/
theorem hpTimerLatches : Obligations.HpTimerLatches := by
  intro v s
  refine ⟨⟨_, rfl, fun n hn => ?_, fun n hn => ?_⟩, ⟨_, rfl, rfl, List.length_mapIdx, hptAt_hptClear v s⟩,
    fun running safe => ⟨_, exec_hptTick running safe, rfl, List.length_map _, fun n => ?_⟩⟩
  · rw [getLsbD_hptStatus, decide_eq_true hn, Bool.true_and]
  · rw [getLsbD_hptStatus, decide_eq_false (Nat.not_lt.mpr hn), Bool.false_and]
  · have channel : (hptAt s n).active = true ∧ (hptAt s n).ocv = s.clock ↔
        (hptAt s n).active = true ∧ (hptAt s n).ocv = s.clock ∧ n < s.hpt.length :=
      ⟨fun ⟨active, due⟩ => ⟨active, due, lt_length_of_active active⟩, fun ⟨active, due, _⟩ => ⟨active, due⟩⟩
    rw [hptAt_hptCompare, hptCompared_eq_ite]
    simp only [channel]

end Sys2Proof.Proofs

namespace Sys2Proof.Proofs

open Sys2Proof.Machine

/-! ## The DMA engine -/

/-! ### The plain registers (O36) -/

/-- A change of one DMA channel writes its changed record back. -/
theorem modDma_eq (c : Nat) (f : DmaChannel → DmaChannel) (s : State) :
    modDma c f s = { s with dma := s.dma.set c (f (dmaAt s c)) } := by
  rw [modDma, Laws.modify_eq_set _ _ _ ⟨0, 0, 0⟩]
  rfl

/-- Settles O36: a write stores one channel's record, and a read is an `answer`. -/
theorem dmaRegisters : Obligations.DmaRegisters := by
  intro c v s
  refine ⟨?_, ?_, ?_, rfl, rfl, rfl⟩
  · exact congrArg wrote (modDma_eq c _ s)
  · exact congrArg wrote (modDma_eq c _ s)
  · exact congrArg wrote (modDma_eq c _ s)

/-! ### The blocks of a copy -/

/-- Guest memory after the first `k` blocks of a copy (R213). -/
def dmaBlocks (block src dst n : Nat) (g : Guest) (k : Nat) : Guest :=
  (List.range k).foldl (dmaBlockCopy block src dst n) g

theorem dmaBlocks_zero (block src dst n : Nat) (g : Guest) : dmaBlocks block src dst n g 0 = g := rfl

theorem dmaBlocks_succ (block src dst n : Nat) (g : Guest) (k : Nat) :
    dmaBlocks block src dst n g (k + 1) = dmaBlockCopy block src dst n (dmaBlocks block src dst n g k) k := by
  simp [dmaBlocks, List.range_succ]

theorem dmaCopy_eq_dmaBlocks (block src dst n : Nat) (g : Guest) :
    dmaCopy block src dst n g = dmaBlocks block src dst n g ((n + block - 1) / block) := rfl

theorem dmaBlocks_holes (block src dst n : Nat) (g : Guest) (k : Nat) :
    (dmaBlocks block src dst n g k).holes = g.holes := by
  induction k with
  | zero => rfl
  | succ k ih => rw [dmaBlocks_succ, dmaBlockCopy_holes, ih]

theorem dmaBlocks_backed (block src dst n : Nat) (g : Guest) (k a : Nat) :
    (dmaBlocks block src dst n g k).backed a = g.backed a := by
  rw [Guest.backed, dmaBlocks_holes, Guest.backed]

section
variable {block src dst n : Nat} {g : Guest}

theorem storesIn_dmaBlocks (hn : n < 2 ^ 32) (k : Nat) : StoresIn (bytesOf dst 0 n) g (dmaBlocks block src dst n g k) := by
  induction k with
  | zero => exact .refl _ g
  | succ k ih =>
    rw [dmaBlocks_succ]
    exact ih.trans (storesIn_dmaBlockCopy hn _ k)

theorem dmaBlocks_wf (hn : n < 2 ^ 32) (hg : g.wf = true) (k : Nat) : (dmaBlocks block src dst n g k).wf = true :=
  (storesIn_dmaBlocks hn k hg).1

/-- Every byte of a copy lies in one of its blocks. -/
theorem div_lt_blockCount (hb : 1 ≤ block) {i : Nat} (hi : i < n) : i / block < (n + block - 1) / block :=
  calc i / block
    _ < i / block + 1 := Nat.lt_succ_self _
    _ = (i + block) / block := (Nat.add_div_right i hb).symm
    _ ≤ (n + block - 1) / block := Nat.div_le_div_right (by omega)

/-- Byte `i` is written by its block, `i / block`, with what that block's read returned, and no later block stores to it:
fewer than 2^32 bytes have distinct addresses. -/
theorem guestByte_dmaBlocks (hn : n < 2 ^ 32) (hb : 1 ≤ block) (hg : g.wf = true) {i : Nat} (hi : i < n) {k : Nat}
    (done : i / block < k) :
    guestByte (dmaBlocks block src dst n g k) (dst + i) =
      guestAnswer (dmaBlocks block src dst n g (i / block)) (src + i) := by
  induction k with
  | zero => exact absurd done (Nat.not_lt_zero _)
  | succ k ih =>
    obtain ⟨-, -, -, written, kept⟩ := Laws.dmaBlockCopy_spec (block := block) (src := src) (dst := dst) (j := k) hn
      (dmaBlocks_wf (block := block) (src := src) (dst := dst) hn hg k)
    rw [dmaBlocks_succ]
    obtain earlier | rfl := Nat.lt_succ_iff_lt_or_eq.mp done
    · have below : i < k * block := (Nat.div_lt_iff_lt_mul hb).mp earlier
      rw [kept _ (fun m _ _ => by omega), ih earlier]
    · have whole : i / block * block + i % block = i := Nat.div_add_mod' i block
      have := written (i % block) (Nat.mod_lt i hb) (by rwa [whole])
      rwa [whole] at this

/-- Where there is memory, a source byte that no earlier block stored to arrives as it was (R213). -/
theorem guestByte_dmaCopy (hn : n < 2 ^ 32) (hb : 1 ≤ block) (hg : g.wf = true)
    (apart : (∀ i < n, ∀ j < n, (src + i) % 2 ^ 32 ≠ (dst + j) % 2 ^ 32) ∨ n ≤ block) {i : Nat} (hi : i < n)
    (backed : g.backed (src + i) = true) :
    guestByte (dmaCopy block src dst n g) (dst + i) = guestByte g (src + i) := by
  have untouched : guestByte (dmaBlocks block src dst n g (i / block)) (src + i) = guestByte g (src + i) := by
    obtain disjoint | oneBlock := apart
    · exact (storesIn_dmaBlocks hn _).guestByte_eq hg fun j _ hj => (disjoint i hi j hj).symm
    · rw [Nat.div_eq_of_lt (by omega), dmaBlocks_zero]
  rw [dmaCopy_eq_dmaBlocks, guestByte_dmaBlocks hn hb hg hi (div_lt_blockCount hb hi),
    guestAnswer_backed ((dmaBlocks_backed ..).trans backed), untouched]

end

/-! ### The start (O37) -/

theorem exec_dmaStart_off {v : Word} (c : Nat) (s : State) (off : v.getLsbD 0 = false) :
    exec (.dmaStart c v) s = wrote s := if_neg (Bool.eq_false_iff.mp off)

theorem exec_dmaStart_on {v : Word} (c : Nat) (s : State) (on : v.getLsbD 0 = true) :
    exec (.dmaStart c v) s = wrote (dmaRun c s) := if_pos on

/-- Settles O37: the chain is memory after each number of blocks, each block by `dmaBlockCopy_spec`, and the whole copy
by `guestByte_dmaCopy`. -/
theorem dmaStartCopies : Obligations.DmaStartCopies := by
  rintro c v irq s src dst n block wf hb line rfl rfl rfl rfl
  have hn : (dmaAt s c).count.toNat < 2 ^ 32 := (dmaAt s c).count.isLt
  have owed : s.cfg.dmaIrq.getD c 0 = irq := by rw [List.getD_eq_getElem?_getD, line, Option.getD_some]
  refine ⟨exec_dmaStart_off c s, fun on => ⟨_, exec_dmaStart_on c s on, ?_,
    ⟨dmaBlocks _ _ _ _ s.mem, rfl, rfl, fun j _ => ?_⟩,
    fun apart backed i hi => guestByte_dmaCopy hn hb wf apart hi (backed i hi)⟩⟩
  · rw [← owed]
    rfl
  · obtain ⟨-, spec⟩ := Laws.dmaBlockCopy_spec (j := j) hn (dmaBlocks_wf hn wf j)
    rwa [dmaBlocks_succ]

end Sys2Proof.Proofs

namespace Sys2Proof.Proofs

open Sys2Proof.Machine

/-! ## The windows (O4) -/

/-! ### The channel switch (R237, R238) -/

theorem chswOffset_base_add {c : Cfg} {sub : ChswSub} {off : Nat} (h : off < 2 ^ 32) (slot : c.inChsw sub off = true) :
    chswOffset c sub ((c.chsw sub).base + BitVec.ofNat 32 off) = some off := by
  simp only [chswOffset, toNat_add_ofNat_sub _ h, slot, if_true]

section
variable {c : Cfg} {a : Word} {second : Bool} {off : Nat}

/-- A write in R0, or in R1 and not in R0, is a read assignment. -/
theorem decodeChsw_readAssign (hit : chswOffset c (if second then .r1 else .r0) a = some off)
    (notR0 : second = true → chswOffset c .r0 a = none) (v : Word) :
    decodeChsw c a true v = .chswRW second off v := by
  cases second with
  | false => simp only [decodeChsw, if_true, show chswOffset c .r0 a = some off from hit]
  | true => simp only [decodeChsw, if_true, notR0 rfl, show chswOffset c .r1 a = some off from hit]

/-- A write in neither of those, and in W0, or in W1 and not in W0, is a write assignment. -/
theorem decodeChsw_writeAssign (hit : chswOffset c (if second then .w1 else .w0) a = some off)
    (notR0 : chswOffset c .r0 a = none) (notR1 : chswOffset c .r1 a = none)
    (notW0 : second = true → chswOffset c .w0 a = none) (v : Word) :
    decodeChsw c a true v = .chswWW second off v := by
  cases second with
  | false => simp only [decodeChsw, if_true, notR0, notR1, show chswOffset c .w0 a = some off from hit]
  | true => simp only [decodeChsw, if_true, notR0, notR1, notW0 rfl, show chswOffset c .w1 a = some off from hit]

end

/-! ### The ATA window (R280, R282) -/

/-- An offset in the window gives an address in the window, and is below 2^32. -/
theorem inRange_of_inAtaWin {c : Cfg} {off : Nat} (h : c.inAtaWin off = true) :
    off < 2 ^ 32 ∧ inRange c.cfAtaBase c.cfAtaLast (c.cfAtaBase + BitVec.ofNat 32 off) = true := by
  have fits : c.cfAtaBase.toNat + off ≤ c.cfAtaLast.toNat := of_decide_eq_true h
  have last := c.cfAtaLast.isLt
  have sum : (c.cfAtaBase + BitVec.ofNat 32 off).toNat = c.cfAtaBase.toNat + off := by bv_omega
  refine ⟨by omega, ?_⟩
  simp only [inRange, Bool.and_eq_true, decide_eq_true_eq, BitVec.le_def, sum]
  exact ⟨Nat.le_add_right _ _, fits⟩

theorem decodeCf_inAtaWin {c : Cfg} {off : Nat} (h : c.inAtaWin off = true) (write : Bool) (v : Word) :
    decodeCf c (c.cfAtaBase + BitVec.ofNat 32 off) write v =
      if write then .cfAtaW off v else if off = c.cfStatusOff then .cfStatusR else .cfAtaR off := by
  obtain ⟨small, inside⟩ := inRange_of_inAtaWin h
  simp only [decodeCf, inside, toNat_add_ofNat_sub _ small, if_true]

/-- Settles O4: the address gives back the offset in its sub-range, which is the first that has it, or in the ATA
window. -/
theorem windowOperationsRoundTrip : Obligations.WindowOperationsRoundTrip := by
  intro w h off v small
  refine ⟨fun second hk slot hs notR0 => ?_, fun second hk slot hs notR0 notR1 notW0 => ?_, fun hk inside hs => ?_⟩
  · refine encode_decode rfl ((decodeAccess_handler hs hk true v).trans ?_)
    exact decodeChsw_readAssign (chswOffset_base_add small slot) (fun e => by subst e; exact notR0 rfl) v
  · refine encode_decode rfl ((decodeAccess_handler hs hk true v).trans ?_)
    exact decodeChsw_writeAssign (chswOffset_base_add small slot) notR0 notR1 (fun e => by subst e; exact notW0 rfl) v
  · have selected (write : Bool) (v : Word) :=
      (decodeAccess_handler hs hk write v).trans (decodeCf_inAtaWin inside write v)
    refine ⟨encode_decode rfl (selected true v), fun other => ?_, fun status => ?_⟩
    · exact encode_decode rfl ((selected false 0).trans (if_neg other))
    · subst status
      exact encode_decode rfl ((selected false 0).trans (if_pos rfl))

end Sys2Proof.Proofs

namespace Sys2Proof.Proofs

open Sys2Proof.Machine

/-! ## The EDMAC -/

/-- A change of one EDMAC channel writes its changed record back. -/
theorem modEdmac_eq (ch : Nat) (f : EdmacChannel → EdmacChannel) (s : State) :
    modEdmac ch f s = { s with edmac := s.edmac.set ch (f (edmacAt s ch)) } := by
  rw [modEdmac, Laws.modify_eq_set _ _ _ ⟨EdmacRegs.reset, none, 0⟩]
  rfl

theorem edmacAt_modEdmac {ch : Nat} {s : State} (h : ch < s.edmac.length) (f : EdmacChannel → EdmacChannel) :
    edmacAt (modEdmac ch f s) ch = f (edmacAt s ch) := by
  rw [modEdmac_eq]
  simp [edmacAt, h]

theorem edmacAt_modEdmac_ne {ch other : Nat} (h : other ≠ ch) (f : EdmacChannel → EdmacChannel) (s : State) :
    edmacAt (modEdmac ch f s) other = edmacAt s other := by
  simp [edmacAt, modEdmac, List.getElem?_modify_ne _ _ (Ne.symm h)]

/-! ### The plain registers (O38) -/

theorem edmacRegs_get_set (x : EdmacRegs) (r q : EdmacReg) (v : Word) :
    (x.set r v).get q = if q = r then v else x.get q := by
  cases r <;> cases q <;> rfl

/-- Settles O38: a read is an `answer`, and a write stores one register of one channel's record. -/
theorem edmacRegisters : Obligations.EdmacRegisters := by
  intro r ch v s channel
  refine ⟨rfl, _, rfl, rfl, List.length_modify .., fun c other => edmacAt_modEdmac_ne other _ s, ?_⟩
  have stored := edmacAt_modEdmac channel fun e => { e with regs := e.regs.set r v }
  refine ⟨fun q => ?_, congrArg (·.lastConn) stored, congrArg (·.started) stored⟩
  exact (congrArg (·.regs.get q) stored).trans (edmacRegs_get_set _ r q v)

/-! ### The resolved connection (R235) -/

theorem resolveConn_write {s : State} {ch : Nat} {x : EdmacCfg} (entry : s.cfg.edmac[ch]? = some x)
    (write : x.isWrite = true) : resolveConn s ch = (s.conn.writeConn[ch]?).getD none := by
  have dir : edmacIsWrite s.cfg ch = true := by rw [edmacIsWrite, entry, Option.map_some, Option.getD_some, write]
  rw [resolveConn, if_pos dir]
  cases s.conn.writeConn[ch]? <;> rfl

theorem resolveConn_read {s : State} {ch : Nat} {x : EdmacCfg} (entry : s.cfg.edmac[ch]? = some x)
    (read : x.isWrite = false) : resolveConn s ch = readConnOf s.conn ch := by
  have dir : edmacIsWrite s.cfg ch = false := by rw [edmacIsWrite, entry, Option.map_some, Option.getD_some, read]
  rw [resolveConn, dir, if_neg Bool.false_ne_true]

/-- A read channel resolves to the least of the 32 connections assigned to it. -/
theorem readConnOf_eq_some_iff (m : ConnMatrix) (ch : Nat) (i : Word) :
    readConnOf m ch = some i ↔
      i.toNat < 32 ∧ m.readConn[i.toNat]? = some (some ch) ∧ ∀ j < i.toNat, m.readConn[j]? ≠ some (some ch) := by
  have least (k : Nat) : (List.range Config.nConn).find? (fun j => m.readConn[j]? == some (some ch)) = some k ↔
      k < 32 ∧ m.readConn[k]? = some (some ch) ∧ ∀ j < k, m.readConn[j]? ≠ some (some ch) := by
    simp only [List.find?_range_eq_some, List.mem_range, Config.nConn, beq_iff_eq, Bool.not_eq_true',
      beq_eq_false_iff_ne]
    tauto
  rw [readConnOf, Option.map_eq_some_iff]
  constructor
  · rintro ⟨k, found, rfl⟩
    have bound : k < 2 ^ 32 := lt_trans ((least k).1 found).1 (by decide)
    rw [BitVec.toNat_ofNat, Nat.mod_eq_of_lt bound]
    exact (least k).1 found
  · exact fun h => ⟨i.toNat, (least _).2 h, by simp⟩

/-! ### The start (O39) -/

theorem exec_edmStart_off {v : Word} (ch : Nat) (s : State) (off : v.getLsbD 0 = false) :
    exec (.edmStart ch v) s = wrote s := if_neg (Bool.eq_false_iff.mp off)

theorem exec_edmStart_noEntry {v : Word} {ch : Nat} {s : State} (on : v.getLsbD 0 = true)
    (entry : edmacIrq s.cfg ch = none) : exec (.edmStart ch v) s = .next (raiseFatal (.edmacNoIrq ch) s) := by
  simp only [exec, execEdmStart, controlBit, on, if_true, entry]

theorem exec_edmStart_entry {v : Word} {ch : Nat} {s : State} {irq : Word} (on : v.getLsbD 0 = true)
    (entry : edmacIrq s.cfg ch = some irq) :
    exec (.edmStart ch v) s = wrote (queueTrigger irq 0 (modEdmac ch (edmacStarted (resolveConn s ch)) s)) := by
  simp only [exec, execEdmStart, controlBit, on, if_true, entry]

/-- Settles O39: the connection is the one the matrix resolves to before the start. -/
theorem edmacStart : Obligations.EdmacStart := by
  intro ch v s
  refine ⟨exec_edmStart_off ch s, exec_edmStart_noEntry, fun x irq on entry line => ⟨resolveConn s ch, ?_, ?_, ?_⟩⟩
  · have owed : edmacIrq s.cfg ch = some irq := by rw [edmacIrq, entry, Option.bind_some, line]
    rw [exec_edmStart_entry on owed, modEdmac_eq]
    rfl
  · exact resolveConn_write entry
  · intro read i
    rw [resolveConn_read entry read]
    exact readConnOf_eq_some_iff s.conn ch i

/-! ### The channel switch (O40) -/

/-- The channel of a place in a sub-range: a slot that has a table entry (R237). -/
theorem chswChannel_eq_some_iff (c : Cfg) (sub : ChswSub) (off ch : Nat) :
    chswChannel c sub off = some ch ↔ off % 4 = 0 ∧ (c.chsw sub).map[off / 4]? = some (some ch) := by
  rw [chswChannel]
  split <;> simp [*, Option.join_eq_some_iff]

theorem chswChannel_eq_none {c : Cfg} {sub : ChswSub} {off : Nat}
    (h : off % 4 ≠ 0 ∨ ∀ ch, (c.chsw sub).map[off / 4]? ≠ some (some ch)) : chswChannel c sub off = none := by
  refine Option.eq_none_iff_forall_ne_some.2 fun ch named => ?_
  obtain ⟨slot, entry⟩ := (chswChannel_eq_some_iff c sub off ch).1 named
  exact h.elim (· slot) (· ch entry)

theorem chswReadAssign_slot {s : State} {sub : ChswSub} {off ch : Nat} {v : Word}
    (named : chswChannel s.cfg sub off = some ch) (bound : v.toNat < 32) :
    chswReadAssign sub off v s = s.withConn { s.conn with readConn := s.conn.readConn.set v.toNat (some ch) } := by
  simp only [chswReadAssign, named, Config.nConn, bound, if_true]

theorem chswReadAssign_logged {s : State} {sub : ChswSub} {off : Nat} {v : Word}
    (h : chswChannel s.cfg sub off = none ∨ 32 ≤ v.toNat) : chswReadAssign sub off v s = logChsw sub off v s := by
  cases named : chswChannel s.cfg sub off with
  | none => simp only [chswReadAssign, named]
  | some ch =>
    have beyond : ¬ v.toNat < Config.nConn := Nat.not_lt.2 (h.resolve_left (by simp [named]))
    simp only [chswReadAssign, named, beyond, if_false]

theorem chswWriteAssign_slot {s : State} {sub : ChswSub} {off ch : Nat} (named : chswChannel s.cfg sub off = some ch)
    (v : Word) :
    chswWriteAssign sub off v s = s.withConn { s.conn with writeConn := s.conn.writeConn.set ch (some v) } := by
  simp only [chswWriteAssign, named]

theorem chswWriteAssign_logged {s : State} {sub : ChswSub} {off : Nat} (h : chswChannel s.cfg sub off = none)
    (v : Word) : chswWriteAssign sub off v s = logChsw sub off v s := by
  simp only [chswWriteAssign, h]

/-- Settles O40: the place names a channel or none, and a read connection is one of the 32 or not. -/
theorem channelSwitchWrites : Obligations.ChannelSwitchWrites := by
  intro second off v s
  refine ⟨?_, ?_⟩
  · rintro sub rfl
    refine ⟨fun ch slot entry bound => ?_, fun h => ?_⟩
    · exact congrArg wrote (chswReadAssign_slot ((chswChannel_eq_some_iff ..).2 ⟨slot, entry⟩) bound)
    · exact congrArg wrote (chswReadAssign_logged ((or_assoc.2 h).imp_left chswChannel_eq_none))
  · rintro sub rfl
    refine ⟨fun ch slot entry => ?_, fun h => ?_⟩
    · exact congrArg wrote (chswWriteAssign_slot ((chswChannel_eq_some_iff ..).2 ⟨slot, entry⟩) v)
    · exact congrArg wrote (chswWriteAssign_logged (chswChannel_eq_none h) v)

end Sys2Proof.Proofs

namespace Sys2Proof.Proofs

open Sys2Proof.Machine

/-! ## The SDIO controller -/

/-! ### The hand-over (R271) -/

/-- A completion is handed over exactly when one waits and interrupts are enabled (R271). -/
theorem sdTryIrq_eq (s : State) :
    sdTryIrq s = { s with
      sd := { s.sd with irqPending := s.sd.irqPending && !s.sd.irqEn }
      agents := { s.agents with
        cpuQueue :=
          if s.sd.irqPending && s.sd.irqEn then s.agents.cpuQueue ++ [⟨s.cfg.sdIrq, 0⟩] else s.agents.cpuQueue } } := by
  unfold sdTryIrq
  by_cases due : (s.sd.irqPending && s.sd.irqEn) = true
  · obtain ⟨waiting, enabled⟩ := Bool.and_eq_true_iff.1 due
    rw [if_pos due, if_pos due, waiting, enabled]
    rfl
  · have kept : (s.sd.irqPending && !s.sd.irqEn) = s.sd.irqPending := by
      obtain idle | disabled := Bool.and_eq_false_iff.1 (Bool.eq_false_iff.2 due)
      · rw [idle, Bool.false_and]
      · rw [disabled, Bool.not_false, Bool.and_true]
    rw [if_neg due, if_neg due, kept]

/-! ### The plain registers of both controllers (O41) -/

/-- Settles O41: a read is an `answer`, a write stores one field, and SD_IRQ_EN then hands over (`sdTryIrq_eq`). -/
theorem storageRegisters : Obligations.StorageRegisters := by
  intro v s
  have irqEn : exec (.sdIrqenW v) s = wrote (sdTryIrq (s.withSd { s.sd with irqEn := v.getLsbD 0 })) := rfl
  refine ⟨rfl, rfl, rfl, rfl, rfl, rfl, rfl, rfl, rfl, rfl, rfl, rfl, rfl, rfl, rfl, rfl, rfl, rfl, rfl, rfl, rfl, rfl,
    rfl, ?_⟩
  rw [irqEn, sdTryIrq_eq]
  rfl

/-! ### The data phase (R266) -/

theorem sdTryData_idle {s : State} (h : s.sd.outstanding = none ∨ s.sd.dmaEnabled = false) : sdTryData s = s := by
  unfold sdTryData
  split
  · rfl
  · rename_i o waiting
    rw [h.resolve_left (by simp [waiting]), if_neg Bool.false_ne_true]

theorem sdTryData_run {s : State} {o : SdOutstanding} (waiting : s.sd.outstanding = some o)
    (enabled : s.sd.dmaEnabled = true) : sdTryData s = (sdMove o.dir s).withSd (sdPhaseDone s.cfg o s.sd) := by
  simp only [sdTryData, waiting, enabled, if_true]

/-- Bytes from the card: as many as asked for, those of the script while it lasts (R64). -/
theorem sdReadBytes_eq (n : Nat) (s : State) :
    ∃ bs env, sdReadBytes n s = (bs, s.withEnv env) ∧ bs.length = n ∧
      ∀ script more, s.env.sdBytes = script ++ more → script.length = n →
        bs = script ∧ env = { s.env with sdBytes := more } := by
  obtain ⟨env, rest⟩ := sdReadBytes_snd n s
  refine ⟨_, env, Prod.ext rfl rest, sdReadBytes_length n s, fun script more hs len => ?_⟩
  have read := Laws.sdReadBytes_script script more s hs
  rw [len] at read
  rw [read] at rest
  exact ⟨congrArg Prod.fst read, (congrArg State.env rest).symm⟩

/-- The controller after a data phase and its hand-over (R266, R271). -/
def sdPhaseOver (c : Cfg) (o : SdOutstanding) (x : SdState) : SdState :=
  { sdPhaseDone c o x with irqPending := (o.multi || x.irqPending) && !x.irqEn }

/-- The trigger calls owed after a data phase (R266, R271). -/
def sdPhaseQueue (o : SdOutstanding) (s : State) : List TriggerCall :=
  if (o.multi || s.sd.irqPending) && s.sd.irqEn then s.agents.cpuQueue ++ [⟨s.cfg.sdIrq, 0⟩] else s.agents.cpuQueue

section
variable {s : State} {o : SdOutstanding}

/-- A read phase fills guest memory with the card's bytes, in stream order (R266). -/
theorem sdPhase_read (waiting : s.sd.outstanding = some o) (enabled : s.sd.dmaEnabled = true) (dir : o.dir = .read)
    (wf : s.mem.wf = true) :
    ∃ t bs env, wrote (sdTryIrq (sdTryData s)) = .next t ∧
      t = { s with
        sd := sdPhaseOver s.cfg o s.sd, agents := { s.agents with cpuQueue := sdPhaseQueue o s }, env := env
        mem := t.mem, ret := some 0 } ∧
      bs.length = sdBytes s.sd.dmaCount ∧
      (∀ i (h : i < bs.length), guestByte t.mem (s.sd.dmaAddr.toNat + i) = bs[i]) ∧
      ∀ script more, s.env.sdBytes = script ++ more → script.length = sdBytes s.sd.dmaCount →
        bs = script ∧ env = { s.env with sdBytes := more } := by
  obtain ⟨bs, env, read, len, scripted⟩ := sdReadBytes_eq (sdBytes s.sd.dmaCount) s
  have fits : bs.length ≤ guestSize := by
    have := s.sd.dmaCount.isLt
    rw [len, sdBytes, guestSize]
    omega
  have moved : sdMove .read s = (s.withEnv env).withMem (guestWrite s.mem s.sd.dmaAddr.toNat bs) := by
    simp only [sdMove, read]
  rw [sdTryData_run waiting enabled, dir, moved, sdTryIrq_eq]
  exact ⟨_, bs, env, rfl, rfl, len, fun i hi => guestByte_guestWrite_same _ bs i wf fits hi, scripted⟩

/-- A write phase sends the guest's bytes to the card, in ascending order (R266). -/
theorem sdPhase_write (waiting : s.sd.outstanding = some o) (enabled : s.sd.dmaEnabled = true) (dir : o.dir = .write) :
    wrote (sdTryIrq (sdTryData s)) = .next { s with
      sd := sdPhaseOver s.cfg o s.sd, agents := { s.agents with cpuQueue := sdPhaseQueue o s }
      mem := s.mem.after 1
      calls :=
        ((List.range (sdBytes s.sd.dmaCount)).map
          (fun i => Call.sdWriteByte (guestAnswer s.mem (s.sd.dmaAddr.toNat + i)))).reverse ++ s.calls
      ret := some 0 } := by
  rw [sdTryData_run waiting enabled, dir, sdMove, sdWriteBytes_eq, guestRead, List.map_map, sdTryIrq_eq]
  rfl

end

/-! ### SD_DMA_CTRL (O44) -/

/-- Settles O44: the write sets the enable, then runs what `sdPhase_read` and `sdPhase_write` say, or hands over. -/
theorem sdioDmaControl : Obligations.SdioDmaControl := by
  intro v s
  have stored : exec (.sdDmactrlW v) s =
      wrote (sdTryIrq (sdTryData (s.withSd { s.sd with dmaEnabled := v.getLsbD 0 }))) := rfl
  refine ⟨fun idle => ?_, ?_⟩
  · rw [stored, sdTryData_idle idle, sdTryIrq_eq]
    rfl
  · rintro cmd dir multi n done q waiting on rfl rfl rfl
    rw [stored, on]
    refine ⟨?_, ?_⟩
    · rintro rfl wf
      exact sdPhase_read (s := s.withSd { s.sd with dmaEnabled := true }) waiting rfl rfl wf
    · rintro rfl
      exact sdPhase_write (s := s.withSd { s.sd with dmaEnabled := true }) waiting rfl rfl

/-! ### The command (R264, R265) -/

/-- `cmd` is bits 45:40 of the token, which are bits 13:8 of SD_CMDHI (R96). -/
theorem sdCmd_sdToken (hi lo : Word) : sdCmd (sdToken hi lo) = hi.extractLsb' 8 6 := by
  rw [sdCmd, sdToken, BitVec.extractLsb'_append_eq_of_le (by decide), BitVec.extractLsb'_extractLsb'_of_le (by decide)]

/-- `arg` is bits 39:0 of the token: bits 7:0 of SD_CMDHI over SD_CMDLO (R96). -/
theorem sdArg_sdToken (hi lo : Word) : sdArg (sdToken hi lo) = hi.extractLsb' 0 8 ++ lo := by
  apply BitVec.eq_of_getLsbD_eq
  intro i bound
  simp only [sdArg, sdToken, BitVec.getLsbD_extractLsb', BitVec.getLsbD_append, bound, decide_true, Bool.true_and,
    Nat.zero_add]
  by_cases low : i < 32
  · rw [if_pos low, if_pos low]
  · rw [if_neg low, if_neg low, decide_eq_true (by omega : i - 32 < 16), decide_eq_true (by omega : i - 32 < 8)]

/-- The card's answer to a command, and what is left of the answers: the next of the script, or free (R64). -/
def SdAnswers (s : State) (cmd : BitVec 6) (arg : BitVec 40) (r : SdResponse) (env : Env) : Prop :=
  (∃ rest, s.env.sdResponses = r :: rest ∧ env = { s.env with sdResponses := rest }) ∨
    (s.env.sdResponses = [] ∧ r = Config.sdCommand s.env.draws cmd arg ∧ env = { s.env with draws := s.env.draws + 1 })

theorem sdDoCommand_of_answers {s : State} {cmd : BitVec 6} {arg : BitVec 40} {r : SdResponse} {env : Env}
    (h : SdAnswers s cmd arg r env) : sdDoCommand cmd arg s = (r, (emit (.sdCommand cmd arg) s).withEnv env) := by
  obtain ⟨rest, script, rfl⟩ | ⟨script, rfl, rfl⟩ := h <;> simp only [sdDoCommand, script]

/-- An answer to a command takes no data bytes off the script. -/
theorem SdAnswers.sdBytes {s : State} {cmd : BitVec 6} {arg : BitVec 40} {r : SdResponse} {env : Env}
    (h : SdAnswers s cmd arg r env) : env.sdBytes = s.env.sdBytes := by
  obtain ⟨rest, -, rfl⟩ | ⟨-, -, rfl⟩ := h <;> rfl

/-- The calls of a command: a diagnostic while a data phase is outstanding, then the command (R264). -/
def sdIssueCalls (s : State) (cmd : BitVec 6) (arg : BitVec 40) : List Call :=
  .sdCommand cmd arg ::
    (if s.sd.outstanding.isSome then .log .protocol (.sdOutstanding s.env.pc) :: s.calls else s.calls)

/-- A command up to its completion, with its answer given (R264, R265). -/
theorem sdCommand_eq {s : State} {cmd : BitVec 6} {arg : BitVec 40} {r : SdResponse} {env : Env}
    (hcmd : cmd = s.sd.cmdHi.extractLsb' 8 6) (harg : arg = s.sd.cmdHi.extractLsb' 0 8 ++ s.sd.cmdLo)
    (h : SdAnswers s cmd arg r env) :
    sdCommand s = { s with
      sd := sdCompleted s.cfg cmd r (sdCleared s.sd), env := env, calls := sdIssueCalls s cmd arg } := by
  have token : sdCmd (sdTokenOf s) = cmd ∧ sdArg (sdTokenOf s) = arg :=
    ⟨(sdCmd_sdToken ..).trans hcmd.symm, (sdArg_sdToken ..).trans harg.symm⟩
  have logged : sdLogOutstanding s = { s with
      calls := if s.sd.outstanding.isSome then .log .protocol (.sdOutstanding s.env.pc) :: s.calls else s.calls } := by
    unfold sdLogOutstanding
    split <;> rfl
  have answered : SdAnswers ((sdLogOutstanding s).withSd (sdCleared s.sd)) cmd arg r env := by rwa [logged]
  simp only [sdCommand, token, sdDoCommand_of_answers answered]
  rw [logged]
  rfl

/-- The data command that `cmd` leaves outstanding (R265). -/
def sdDataCmd (cmd : BitVec 6) : Option SdOutstanding :=
  if cmd = 17 then some ⟨17, .read, false⟩ else if cmd = 18 then some ⟨18, .read, true⟩
  else if cmd = 24 then some ⟨24, .write, false⟩ else if cmd = 25 then some ⟨25, .write, true⟩ else none

/-- The controller after a command that the card answers, cleared for it first (R264, R265). -/
def sdAnswered (c : Cfg) (cmd : BitVec 6) (r : SdResponse) (x : SdState) : SdState :=
  { x with
    resp := sdPacked c r, status := sdStatusDone c, outstanding := sdDataCmd cmd, dmaProgress := 0
    irqPending := if cmd ∈ [(18 : BitVec 6), 25] then x.irqPending else true }

theorem sdCompleted_answered {r : SdResponse} (ok : r ≠ .fail) (c : Cfg) (cmd : BitVec 6) (x : SdState) :
    sdCompleted c cmd r (sdCleared x) = sdAnswered c cmd r x := by
  have data : (if sdIsData cmd then some ⟨cmd, sdDir cmd, sdIsMulti cmd⟩ else none) = sdDataCmd cmd := by
    revert cmd
    decide
  have multi : (sdIsData cmd && sdIsMulti cmd) = decide (cmd ∈ [(18 : BitVec 6), 25]) := by
    revert cmd
    decide
  cases r with
  | fail => exact absurd rfl ok
  | resp4 b | resp16 b => simp only [sdCompleted, sdCleared, sdAnswered, data, multi, decide_eq_true_eq]

theorem sdDataCmd_eq_none {cmd : BitVec 6} (h : cmd ∉ [(17 : BitVec 6), 18, 24, 25]) : sdDataCmd cmd = none := by
  revert cmd
  decide

theorem exec_sdIssue_off {v : Word} (s : State) (off : v.getLsbD 0 = false) : exec (.sdIssue v) s = wrote s :=
  if_neg (Bool.eq_false_iff.1 off)

theorem exec_sdIssue_on {v : Word} (s : State) (on : v.getLsbD 0 = true) :
    exec (.sdIssue v) s = wrote (sdTryIrq (sdTryData (sdCommand s))) := if_pos on

/-- The machine after a command that the card answers, its data phase still to run. -/
def sdIssued (s : State) (cmd : BitVec 6) (arg : BitVec 40) (r : SdResponse) (env : Env) : State :=
  { s with sd := sdAnswered s.cfg cmd r s.sd, env := env, calls := sdIssueCalls s cmd arg }

theorem exec_sdIssue_answered {v : Word} {s : State} {cmd : BitVec 6} {arg : BitVec 40} {r : SdResponse} {env : Env}
    (on : v.getLsbD 0 = true) (hcmd : cmd = s.sd.cmdHi.extractLsb' 8 6)
    (harg : arg = s.sd.cmdHi.extractLsb' 0 8 ++ s.sd.cmdLo) (h : SdAnswers s cmd arg r env) (ok : r ≠ .fail) :
    exec (.sdIssue v) s = wrote (sdTryIrq (sdTryData (sdIssued s cmd arg r env))) := by
  rw [exec_sdIssue_on s on, sdCommand_eq hcmd harg h, sdCompleted_answered ok, sdIssued]

/-- Settles O42: a command that leaves no data phase to run now has its completion handed over. -/
theorem sdioIssue : Obligations.SdioIssue := by
  rintro v s cmd arg r env log hcmd harg answer rfl
  refine ⟨exec_sdIssue_off s, ?_, fun on ok idle => ⟨_, rfl, ?_⟩⟩
  · rintro on rfl
    rw [exec_sdIssue_on s on, sdCommand_eq hcmd harg answer, sdTryData_idle (.inl rfl), sdTryIrq_eq]
    rfl
  · have waits : sdDataCmd cmd = none ∨ s.sd.dmaEnabled = false := idle.imp_left sdDataCmd_eq_none
    rw [exec_sdIssue_answered on hcmd harg answer ok, sdTryData_idle waits, sdTryIrq_eq]
    rfl

/-- Settles O43: the command leaves its data phase outstanding, and `sdPhase_read` and `sdPhase_write` run it. -/
theorem sdioIssueWithData : Obligations.SdioIssueWithData := by
  rintro v s cmd arg r env n done q log hcmd harg answer on ok enabled rfl rfl rfl rfl
  rw [exec_sdIssue_answered on hcmd harg answer ok]
  refine ⟨fun data wf => ?_, fun data => ?_⟩
  · rw [← SdAnswers.sdBytes answer]
    obtain rfl | rfl : cmd = 17 ∨ cmd = 18 := by simpa using data
    · exact sdPhase_read (s := sdIssued s 17 arg r env) (o := ⟨17, .read, false⟩) rfl enabled rfl wf
    · exact sdPhase_read (s := sdIssued s 18 arg r env) (o := ⟨18, .read, true⟩) rfl enabled rfl wf
  · obtain rfl | rfl : cmd = 24 ∨ cmd = 25 := by simpa using data
    · exact sdPhase_write (s := sdIssued s 24 arg r env) (o := ⟨24, .write, false⟩) rfl enabled rfl
    · exact sdPhase_write (s := sdIssued s 25 arg r env) (o := ⟨25, .write, true⟩) rfl enabled rfl

end Sys2Proof.Proofs

namespace Sys2Proof.Proofs

open Sys2Proof.Machine

/-! ## The CF/ATA controller: accesses and requests -/

/-! ### The IDE abstraction (O45) -/

/-- The machine after a forwarded access or a completion event: `fired` says whether a completion came with ATA
interrupts enabled (R281). -/
def ideOutcome (fired : Bool) (env : Env) (s : State) : State :=
  { s with
    cf := { s.cf with irqPending := fired || s.cf.irqPending }
    agents := { s.agents with
      cpuQueue := if fired then s.agents.cpuQueue ++ [⟨s.cfg.cfIrq, 0⟩] else s.agents.cpuQueue }
    env := env }

theorem ideSignal_eq_outcome {s t : State} (h : IdeSignal s t) : ∃ fired env, t = ideOutcome fired env s := by
  obtain ⟨env, rfl | rfl⟩ := h
  · exact ⟨false, env, rfl⟩
  · exact ⟨true, env, rfl⟩

theorem ideRead_script {s : State} {x : Word} {xs : List Word} (values : s.env.ideValues = x :: xs) (off : Nat) :
    ideRead off s = (x, (emit (.ideRead off) s).withEnv { s.env with ideValues := xs }) := by
  simp only [ideRead, values]

theorem ideCompleted_script {s : State} {en : Bool} {es : List Bool} (enabled : s.env.ataIrqEnabled = en :: es) :
    ideCompleted s = ideOutcome en { s.env with ataIrqEnabled := es } s := by
  simp only [ideCompleted, ataIrqEnabled, enabled]
  cases en <;> rfl

theorem afterIde_script {s : State} {done en : Bool} {ds es : List Bool} (signalled : s.env.ideDone = done :: ds)
    (enabled : s.env.ataIrqEnabled = en :: es) :
    afterIde s = ideOutcome (done && en)
      { s.env with ideDone := ds, ataIrqEnabled := if done then es else en :: es } s := by
  have next : afterIde s = if done then ideCompleted (s.withEnv { s.env with ideDone := ds })
      else s.withEnv { s.env with ideDone := ds } := by
    simp only [afterIde, ideSignalled, signalled]
  rw [next]
  cases done with
  | false =>
    simp only [← enabled]
    rfl
  | true => exact ideCompleted_script (s := s.withEnv { s.env with ideDone := ds }) enabled

/-- Settles O45: by the scripts, and in every state by `ideRead_snd`, `afterIde_cases` and `ideCompleted_cases`. -/
theorem cfAtaAccesses : Obligations.CfAtaAccesses := by
  intro off v s
  have reads : exec (.cfAtaR off) s = answer (ideRead off s).1 (afterIde (ideRead off s).2) := rfl
  have writes : exec (.cfAtaW off v) s = wrote (afterIde (emit (.ideWrite off v) s)) := rfl
  have event : exec .cfIdeDone s = .next (ideCompleted s) := rfl
  have status : exec .cfStatusR s = answer (ideRead s.cfg.cfStatusOff s).1
      ((ideRead s.cfg.cfStatusOff s).2.withCf { s.cf with irqPending := false }) := rfl
  refine ⟨fun x xs done ds en es values signalled enabled => ⟨⟨_, ?_, rfl⟩, ⟨_, ?_, rfl⟩, ?_, ?_⟩, ?_, ?_, ?_, ?_⟩
  · rw [reads, ideRead_script values]
    exact congrArg (answer x)
      (afterIde_script (s := (emit (.ideRead off) s).withEnv { s.env with ideValues := xs }) signalled enabled)
  · exact congrArg wrote (afterIde_script (s := emit (.ideWrite off v) s) signalled enabled)
  · rw [event, ideCompleted_script enabled]
    rfl
  · rw [status, ideRead_script values]
    rfl
  · obtain ⟨env, forwarded⟩ := ideRead_snd off s
    obtain ⟨fired, env', after⟩ := ideSignal_eq_outcome (afterIde_cases (ideRead off s).2)
    rw [reads, after, forwarded]
    exact ⟨(ideRead off s).1, true, fired, env', rfl⟩
  · obtain ⟨fired, env, after⟩ := ideSignal_eq_outcome (afterIde_cases (emit (.ideWrite off v) s))
    rw [writes, after]
    exact ⟨true, fired, env, rfl⟩
  · obtain ⟨fired, env, after⟩ := ideSignal_eq_outcome (ideCompleted_cases s)
    rw [event, after]
    exact ⟨fired, env, rfl⟩
  · obtain ⟨env, forwarded⟩ := ideRead_snd s.cfg.cfStatusOff s
    rw [status, forwarded]
    exact ⟨(ideRead s.cfg.cfStatusOff s).1, env, rfl⟩

/-! ### The request (O46) -/

/-- A request, by the direction its value asks for (R286). -/
theorem exec_cfDmaReq {v : Word} {s : State} {dir : Dir} (asks : cfDirOf s.cfg v = some dir) :
    exec (.cfDmaReq v) s =
      if s.cf.dmaEnabled then wrote (cfFlag dir s) else .next (raiseFatal .cfDmaNotEnabled s) := by
  simp only [exec, execCfDmaReq, asks]

theorem cfFlag_eq (dir : Dir) (s : State) :
    cfFlag dir s = { s with
      cf := { s.cf with pendingDma := some ⟨dir, s.cf.dmaAddr, BitVec.ofNat 32 (s.cf.dmaCount.toNat / 4), 0⟩ }
      calls := if s.cf.pendingDma.isSome then .log .protocol (.cfPending s.env.pc) :: s.calls else s.calls } := by
  unfold cfFlag
  dsimp only
  split <;> rfl

/-- Settles O46: the value asks for a direction or for none, and the two commands differ. -/
theorem cfDmaRequest : Obligations.CfDmaRequest := by
  intro v s differ
  refine ⟨fun dir asked => ?_, fun notRead notWrite => ?_⟩
  · have asks : cfDirOf s.cfg v = some dir := by
      obtain ⟨rfl, rfl⟩ | ⟨rfl, rfl⟩ := asked
      · exact if_pos rfl
      · exact (if_neg differ).trans (if_pos rfl)
    rw [exec_cfDmaReq asks]
    refine ⟨fun enabled => ?_, fun disabled => ?_⟩
    · rw [if_pos enabled, cfFlag_eq]
      rfl
    · rw [if_neg (Bool.eq_false_iff.1 disabled)]
      rfl
  · have none : cfDirOf s.cfg v = none := (if_neg notRead).trans (if_neg notWrite)
    simp only [exec, execCfDmaReq, none]
    rfl

end Sys2Proof.Proofs

namespace Sys2Proof.Proofs

open Sys2Proof.Machine

/-! ## The CF/ATA controller: the slices -/

/-! ### The words a slice moves (R287) -/

/-- The machine with these answers of `data_ready()` to come. -/
def withReady (l : List Bool) (s : State) : State := s.withEnv { s.env with cfReady := l }

/-- The next `m` words of a transfer, moved one after another (R287). -/
def cfMoveWords : Nat → CfDma → State → State
  | 0, _, s => s
  | m + 1, p, s => cfMoveWords m { p with done := p.done + 1 } (cfMoveWord p s)

theorem cfReadByte_withReady (l : List Bool) (s : State) :
    cfReadByte (withReady l s) = ((cfReadByte s).1, withReady l (cfReadByte s).2) := by
  cases script : s.env.cfBytes with
  | nil | cons b more =>
    simp only [cfReadByte, withReady, State.withEnv_env, script]
    rfl

theorem cfReadBytes_withReady (l : List Bool) (n : Nat) (s : State) :
    cfReadBytes n (withReady l s) = ((cfReadBytes n s).1, withReady l (cfReadBytes n s).2) := by
  induction n generalizing s with
  | zero => rfl
  | succ n ih => simp only [cfReadBytes, cfReadByte_withReady, ih]

/-- Moving a word asks the backend nothing about its being ready. -/
theorem cfMoveWord_withReady (l : List Bool) (p : CfDma) (s : State) :
    cfMoveWord p (withReady l s) = withReady l (cfMoveWord p s) := by
  cases dir : p.dir with
  | read =>
    simp only [cfMoveWord, dir, cfReadBytes_withReady]
    rfl
  | write =>
    simp only [cfMoveWord, dir, cfWriteBytes_eq]
    rfl

theorem cfDataReady_script {s : State} {b : Bool} {l : List Bool} (script : s.env.cfReady = b :: l) :
    cfDataReady s = (b, withReady l s) := by
  simp only [cfDataReady, script, withReady]

/-- Answers of `data_ready()` that let `m` of at most `limit` words move (R287 "break"), then `ready`. -/
def readyFor (m limit : Nat) (ready : List Bool) : List Bool :=
  List.replicate m true ++ (if m < limit then false :: ready else ready)

theorem readyFor_zero {limit : Nat} (ready : List Bool) (h : 0 < limit) : readyFor 0 limit ready = false :: ready :=
  if_pos h

theorem readyFor_all (m : Nat) (ready : List Bool) : readyFor m m ready = List.replicate m true ++ ready := by
  rw [readyFor, if_neg (lt_irrefl m)]

theorem readyFor_succ (m limit : Nat) (ready : List Bool) :
    readyFor (m + 1) (limit + 1) ready = true :: readyFor m limit ready := by
  simp only [readyFor, List.replicate_succ, List.cons_append, Nat.add_lt_add_iff_right]

section
variable {k : Nat} {p : CfDma} {s : State}

theorem cfSliceLoop_stops (h : k = 0 ∨ ¬ p.done < p.words) : cfSliceLoop k p s = (p, s) := by
  cases k with
  | zero => rfl
  | succ k => rw [cfSliceLoop, if_neg (h.resolve_left (Nat.succ_ne_zero k))]

theorem cfSliceLoop_notReady {l : List Bool} (more : p.done < p.words) (script : s.env.cfReady = false :: l) :
    cfSliceLoop (k + 1) p s = (p, withReady l s) := by
  simp only [cfSliceLoop, more, if_true, cfDataReady_script script, Bool.false_eq_true, if_false]

theorem cfSliceLoop_ready {l : List Bool} (more : p.done < p.words) (script : s.env.cfReady = true :: l) :
    cfSliceLoop (k + 1) p s =
      cfSliceLoop k { p with done := p.done + 1 } (withReady l (cfMoveWord p s)) := by
  simp only [cfSliceLoop, more, if_true, cfDataReady_script script, cfMoveWord_withReady]

/-- A backend ready for `m` words and then not, or for all that the slice may move, has exactly those words moved. -/
theorem cfSliceLoop_script {m : Nat} {ready : List Bool} (bound : m ≤ min k (p.words.toNat - p.done.toNat))
    (script : s.env.cfReady = readyFor m (min k (p.words.toNat - p.done.toNat)) ready) :
    cfSliceLoop k p s = ({ p with done := p.done + BitVec.ofNat 32 m }, cfMoveWords m p (withReady ready s)) := by
  induction m generalizing k p s with
  | zero =>
    rw [BitVec.add_zero]
    by_cases able : 0 < min k (p.words.toNat - p.done.toNat)
    · obtain ⟨k, rfl⟩ : ∃ j, k = j + 1 := Nat.exists_eq_succ_of_ne_zero (by omega)
      rw [readyFor_zero ready able] at script
      exact cfSliceLoop_notReady (BitVec.lt_def.2 (by omega)) script
    · rw [Nat.eq_zero_of_not_pos able, readyFor_all, List.replicate_zero, List.nil_append] at script
      rw [cfSliceLoop_stops (by rw [BitVec.lt_def]; omega), ← script]
      rfl
  | succ m ih =>
    obtain ⟨k, rfl⟩ : ∃ j, k = j + 1 := Nat.exists_eq_succ_of_ne_zero (by omega)
    have more : p.done < p.words := BitVec.lt_def.2 (by omega)
    have limit : min (k + 1) (p.words.toNat - p.done.toNat) = min k (p.words.toNat - (p.done + 1).toNat) + 1 := by
      rw [Laws.done_succ p more]
      omega
    rw [limit, readyFor_succ] at script
    rw [limit] at bound
    rw [cfSliceLoop_ready more script, ih (Nat.le_of_succ_le_succ bound) rfl]
    refine Prod.ext ?_ ?_
    · rw [BitVec.add_assoc, Nat.add_comm m 1, BitVec.ofNat_add]
      rfl
    · rw [cfMoveWords, cfMoveWord_withReady]
      rfl

/-- The address of the word after the next. -/
theorem cfWordAddr_succ (more : p.done < p.words) : cfWordAddr { p with done := p.done + 1 } = cfWordAddr p + 4 := by
  simp only [cfWordAddr, Laws.done_succ p more]
  omega

/-- Words from the drive fill guest memory with its bytes, in stream order (R287). -/
theorem cfMoveWords_read {m : Nat} {bs more : List Byte} (dir : p.dir = .read)
    (bound : m ≤ p.words.toNat - p.done.toNat) (script : s.env.cfBytes = bs ++ more) (len : bs.length = 4 * m) :
    cfMoveWords m p s =
      (s.withMem (guestWrite s.mem (cfWordAddr p) bs)).withEnv { s.env with cfBytes := more } := by
  induction m generalizing p s bs with
  | zero =>
    obtain rfl := List.eq_nil_of_length_eq_zero len
    rw [List.nil_append] at script
    rw [← script]
    rfl
  | succ m ih =>
    have left : p.done < p.words := BitVec.lt_def.2 (by omega)
    have next := Laws.done_succ p left
    have four : (bs.take 4).length = 4 := by simp [len]
    rw [← List.take_append_drop 4 bs, List.append_assoc] at script
    have word : cfMoveWord p s =
        (s.withEnv { s.env with cfBytes := bs.drop 4 ++ more }).withMem
          (guestWrite s.mem (cfWordAddr p) (bs.take 4)) := by
      have read := Laws.cfReadBytes_script _ _ s script
      rw [four] at read
      simp only [cfMoveWord, dir, read]
    have rest : (bs.drop 4).length = 4 * m := by
      rw [List.length_drop, len]
      omega
    rw [cfMoveWords, word, ih (p := { p with done := p.done + 1 }) dir (by simp only [next]; omega) rfl rest,
      cfWordAddr_succ left]
    conv_rhs => rw [← List.take_append_drop 4 bs, guestWrite_append, four]
    rfl

/-- The calls that `n` bytes sent to the drive make, newest first: each word is read by one call (R287). -/
def cfSent (g : Guest) (a n : Nat) : List Call :=
  ((List.range n).map (fun i => Call.cfWriteByte (guestAnswer (g.after (i / 4)) (a + i)))).reverse

/-- One word more before the others. -/
theorem cfSent_word_add (g : Guest) (a n : Nat) :
    cfSent g a (4 + n) =
      cfSent (g.after 1) (a + 4) n ++ ((guestRead g a 4).map Call.cfWriteByte).reverse := by
  have first : (List.range 4).map (fun i => Call.cfWriteByte (guestAnswer (g.after (i / 4)) (a + i))) =
      (guestRead g a 4).map Call.cfWriteByte := rfl
  have others : (fun i => Call.cfWriteByte (guestAnswer (g.after (i / 4)) (a + i))) ∘ (4 + ·) =
      fun i => Call.cfWriteByte (guestAnswer ((g.after 1).after (i / 4)) (a + 4 + i)) := by
    funext i
    have call : (4 + i) / 4 = 1 + i / 4 := by omega
    simp only [Function.comp_apply, call, Guest.after_after, Nat.add_assoc]
  rw [cfSent, List.range_add, List.map_append, List.reverse_append, List.map_map, others, first, cfSent]

/-- Words to the drive are the guest's bytes, sent in ascending order (R287). -/
theorem cfMoveWords_write {m : Nat} (dir : p.dir = .write) (bound : m ≤ p.words.toNat - p.done.toNat) :
    cfMoveWords m p s =
      (s.withMem (s.mem.after m)).withCalls (cfSent s.mem (cfWordAddr p) (4 * m) ++ s.calls) := by
  induction m generalizing p s with
  | zero => rfl
  | succ m ih =>
    have left : p.done < p.words := BitVec.lt_def.2 (by omega)
    have next := Laws.done_succ p left
    have word : cfMoveWord p s =
        (s.withCalls (((guestRead s.mem (cfWordAddr p) 4).map Call.cfWriteByte).reverse ++ s.calls)).withMem
          (s.mem.after 1) := by
      simp only [cfMoveWord, dir, cfWriteBytes_eq]
    rw [cfMoveWords, word, ih (p := { p with done := p.done + 1 }) dir (by simp only [next]; omega),
      cfWordAddr_succ left, show 4 * (m + 1) = 4 + 4 * m by omega, cfSent_word_add, List.append_assoc]
    simp only [State.withMem_mem, Guest.after_after, Nat.add_comm 1 m]
    rfl

/-- A read slice, by its script (R287). -/
theorem cfSliceLoop_read {m : Nat} {ready : List Bool} {bs more : List Byte} (dir : p.dir = .read)
    (bound : m ≤ min k (p.words.toNat - p.done.toNat))
    (readyScript : s.env.cfReady = readyFor m (min k (p.words.toNat - p.done.toNat)) ready)
    (byteScript : s.env.cfBytes = bs ++ more) (len : bs.length = 4 * m) :
    cfSliceLoop k p s = ({ p with done := p.done + BitVec.ofNat 32 m },
      ((s.withMem (guestWrite s.mem (cfWordAddr p) bs)).withEnv
        { s.env with cfReady := ready, cfBytes := more }).withCalls s.calls) := by
  rw [cfSliceLoop_script bound readyScript,
    cfMoveWords_read (s := withReady ready s) dir (le_trans bound (min_le_right _ _)) byteScript len]
  rfl

/-- A write slice, by its script (R287). -/
theorem cfSliceLoop_write {m : Nat} {ready : List Bool} (dir : p.dir = .write)
    (bound : m ≤ min k (p.words.toNat - p.done.toNat))
    (readyScript : s.env.cfReady = readyFor m (min k (p.words.toNat - p.done.toNat)) ready) :
    cfSliceLoop k p s = ({ p with done := p.done + BitVec.ofNat 32 m },
      ((s.withMem (s.mem.after m)).withEnv { s.env with cfReady := ready }).withCalls
        (cfSent s.mem (cfWordAddr p) (4 * m) ++ s.calls)) := by
  rw [cfSliceLoop_script bound readyScript,
    cfMoveWords_write (s := withReady ready s) dir (le_trans bound (min_le_right _ _))]
  rfl

end

/-! ### The slice as a sub-step (R370) -/

/-- The transfer once `m` more of its words are moved: over when that is all of them. -/
def cfPendingAfter (p : CfDma) (m : Nat) : Option CfDma :=
  if p.done.toNat + m = p.words.toNat then none else some { p with done := p.done + BitVec.ofNat 32 m }

/-- The sub-step that follows a slice of `m` words (R370). -/
def cfPhaseAfter (p : CfDma) (m : Nat) : TickPhase :=
  if p.done.toNat + m = p.words.toNat then .cfIrq else .timers

section
variable {s : State} {p : CfDma} {m : Nat} {g : Guest} {e : Env} {c : List Call}

/-- A slice is its loop, then the transfer's record (R287). -/
theorem cfSlice_of_loop (pending : s.cf.pendingDma = some p) (valid : p.done ≤ p.words)
    (bound : m ≤ min s.cfg.cfSliceWords (p.words.toNat - p.done.toNat))
    (loop : cfSliceLoop s.cfg.cfSliceWords p s =
      ({ p with done := p.done + BitVec.ofNat 32 m }, ((s.withMem g).withEnv e).withCalls c)) :
    cfSlice s = (decide (p.done.toNat + m = p.words.toNat),
      { s with mem := g, cf := { s.cf with pendingDma := cfPendingAfter p m }, env := e, calls := c }) := by
  have complete : p.done + BitVec.ofNat 32 m = p.words ↔ p.done.toNat + m = p.words.toNat := by
    rw [← BitVec.toNat_inj, Laws.done_add p m valid (le_trans bound (min_le_right _ _))]
  simp only [cfSlice, pending, loop, complete, cfPendingAfter, State.withMem, State.withEnv, State.withCalls,
    State.withCf]
  by_cases ended : p.done.toNat + m = p.words.toNat
  · rw [if_pos ended, if_pos ended, decide_eq_true ended]
  · rw [if_neg ended, if_neg ended, decide_eq_false ended]

theorem cfPhase_of_loop (pending : s.cf.pendingDma = some p) (valid : p.done ≤ p.words)
    (bound : m ≤ min s.cfg.cfSliceWords (p.words.toNat - p.done.toNat))
    (loop : cfSliceLoop s.cfg.cfSliceWords p s =
      ({ p with done := p.done + BitVec.ofNat 32 m }, ((s.withMem g).withEnv e).withCalls c)) :
    cfPhase s = { s with
      mem := g, cf := { s.cf with pendingDma := cfPendingAfter p m }
      agents := { s.agents with tickPhase := cfPhaseAfter p m }, env := e, calls := c } := by
  simp only [cfPhase, cfSlice_of_loop pending valid bound loop, phaseAfterCf, cfPhaseAfter, decide_eq_true_eq]
  rfl

theorem cfPhase_fatal (s : State) : (cfPhase s).fatal = s.fatal := by
  rw [cfPhase, setPhase_fatal, cfSlice]
  split
  · rfl
  · rename_i p pending
    obtain ⟨g, e, c, loop⟩ := cfSliceLoop_shape s.cfg.cfSliceWords p s
    have kept : (cfSliceLoop s.cfg.cfSliceWords p s).2.fatal = s.fatal := by
      rw [loop]
      rfl
    dsimp only
    split <;> exact kept

theorem exec_cfDmaSlice (running : s.agents.cpuHalted = false) (safe : s.fatal = none) :
    exec .cfDmaSlice s = .next (cfPhase s) :=
  tickerStep_of_safe running safe ((cfPhase_fatal s).trans safe)

end

namespace Storage

/-- Settles O47: the scripted slices by `cfSliceLoop_script`, every other by `Laws.cfSliceLoop_cases`. -/
theorem cfSlice : Obligations.CfSlice := by
  intro s running safe pos
  have step := exec_cfDmaSlice running safe
  refine ⟨⟨_, step⟩, fun idle => ?_, fun p more pending left script => ?_, ?_⟩
  · have idlePhase : cfPhase s = setPhase .timers s := by
      simp only [cfPhase, Machine.cfSlice, idle, phaseAfterCf, Bool.false_eq_true, if_false]
    rw [step, idlePhase]
    rfl
  · have lt : p.done.toNat < p.words.toNat := left
    have able : 0 < min s.cfg.cfSliceWords (p.words.toNat - p.done.toNat) := by omega
    have loop : cfSliceLoop s.cfg.cfSliceWords p s = ({ p with done := p.done + BitVec.ofNat 32 0 },
        ((s.withMem s.mem).withEnv { s.env with cfReady := more }).withCalls s.calls) :=
      cfSliceLoop_script (m := 0) (Nat.zero_le _) (by rw [readyFor_zero more able, script])
    have unfinished : ¬ p.done.toNat + 0 = p.words.toNat := by omega
    rw [step, cfPhase_of_loop pending (Nat.le_of_lt lt) (Nat.zero_le _) loop, cfPhaseAfter, cfPendingAfter,
      if_neg unfinished, if_neg unfinished, BitVec.add_zero, ← pending]
  · rintro p left pending valid rfl
    refine ⟨fun m ready bs moreBytes dir bound readyScript byteScript len fits wf => ?_,
      fun m ready dir bound readyScript => ?_, ?_⟩
    · rw [step, cfPhase_of_loop pending valid bound (cfSliceLoop_read dir bound readyScript byteScript len)]
      refine ⟨_, rfl, rfl, rfl, fun i hi => ?_, fun x outside => ?_⟩
      · exact guestByte_guestWrite_same _ bs i wf (by rw [len]; exact fits) hi
      · exact guestByte_guestWrite_other _ bs x wf fun i hi => outside i (by omega)
    · rw [step, cfPhase_of_loop pending valid bound (cfSliceLoop_write dir bound readyScript)]
      rfl
    · obtain ⟨m, g, e, c, bound, loop, read, write, frame⟩ :=
        Laws.cfSliceLoop_cases s.cfg.cfSliceWords p s valid
      rw [step, cfPhase_of_loop pending valid bound loop]
      exact ⟨_, m, e, bound, rfl, rfl, read, write, frame⟩

end Storage

/-! ### A read drained by slices (O48) -/

theorem cfSlices_succ (k : Nat) (s : State) : cfSlices (k + 1) s = (cfSlice (cfSlices k s)).2 := by
  induction k generalizing s with
  | zero => rfl
  | succ k ih => rw [cfSlices, ih, cfSlices]

/-- Slice `k` is one of the slices of a transfer of `w` words: the first one, or one that finds words left. -/
theorem lt_sliceCount_iff {size : Nat} (pos : 1 ≤ size) (w k : Nat) :
    k < max 1 ((w + size - 1) / size) ↔ k = 0 ∨ k * size < w := by
  rw [lt_max_iff, Nat.lt_one_iff, ← Nat.succ_le_iff, Nat.le_div_iff_mul_le pos, Nat.succ_mul]
  omega

/-- A CF DMA read that has moved nothing, of a drive that stays ready and has all its bytes. -/
structure CfReadReady (s : State) (p : CfDma) : Prop where
  pending : s.cf.pendingDma = some p
  dir : p.dir = .read
  start : p.done = 0
  ready : s.env.cfReady = List.replicate p.words.toNat true
  bytes : s.env.cfBytes.length = 4 * p.words.toNat

/-- The transfer with `j` words moved. -/
def cfMoved (p : CfDma) (j : Nat) : CfDma := { p with done := BitVec.ofNat 32 j }

theorem cfMoved_done {p : CfDma} {j : Nat} (valid : j ≤ p.words.toNat) : (cfMoved p j).done.toNat = j := by
  rw [cfMoved, BitVec.toNat_ofNat, Nat.mod_eq_of_lt (lt_of_le_of_lt valid p.words.isLt)]

theorem cfPendingAfter_cfMoved {p : CfDma} {j m : Nat} (valid : j ≤ p.words.toNat) :
    cfPendingAfter (cfMoved p j) m = if j + m = p.words.toNat then none else some (cfMoved p (j + m)) := by
  rw [cfPendingAfter, cfMoved_done valid, cfMoved, cfMoved, BitVec.ofNat_add]

/-- The machine with the first `j` words of the drive's bytes in guest memory and `x` still pending. -/
def cfDrained (s : State) (p : CfDma) (j : Nat) (x : Option CfDma) : State :=
  { s with
    mem := guestWrite s.mem p.addr.toNat (s.env.cfBytes.take (4 * j))
    cf := { s.cf with pendingDma := x }
    env := { s.env with cfReady := s.env.cfReady.drop j, cfBytes := s.env.cfBytes.drop (4 * j) } }

/-- A run of bytes stored in two parts. -/
theorem guestWrite_take_add {g : Guest} {a i : Nat} {bs : List Byte} (h : i ≤ bs.length) (n : Nat) :
    guestWrite (guestWrite g a (bs.take i)) (a + i) ((bs.drop i).take n) = guestWrite g a (bs.take (i + n)) := by
  rw [List.take_add, guestWrite_append, List.length_take_of_le h]

section
variable {s : State} {p : CfDma} (h : CfReadReady s p)
include h

theorem cfDrained_zero : cfDrained s p 0 (some (cfMoved p 0)) = s := by
  have same : cfMoved p 0 = p := by rw [cfMoved, show BitVec.ofNat 32 0 = p.done from h.start.symm]
  rw [same, ← h.pending]
  rfl

/-- One slice of a drive that stays ready moves as many words as it may (R287). -/
theorem cfSlice_drained {j m : Nat} (valid : j ≤ p.words.toNat)
    (hm : m = min s.cfg.cfSliceWords (p.words.toNat - j)) :
    (cfSlice (cfDrained s p j (some (cfMoved p j)))).2 =
      cfDrained s p (j + m) (if j + m = p.words.toNat then none else some (cfMoved p (j + m))) := by
  have done : (cfMoved p j).done.toNat = j := cfMoved_done valid
  have limit : min s.cfg.cfSliceWords ((cfMoved p j).words.toNat - (cfMoved p j).done.toNat) = m := by
    rw [done]
    exact hm.symm
  have ready : s.env.cfReady.drop j = readyFor m
      (min s.cfg.cfSliceWords ((cfMoved p j).words.toNat - (cfMoved p j).done.toNat)) (s.env.cfReady.drop (j + m)) := by
    have words : p.words.toNat - j = m + (p.words.toNat - (j + m)) := by omega
    rw [limit, readyFor_all, h.ready, List.drop_replicate, List.drop_replicate, List.replicate_append_replicate, words]
  have bytes : s.env.cfBytes.drop (4 * j) =
      (s.env.cfBytes.drop (4 * j)).take (4 * m) ++ s.env.cfBytes.drop (4 * (j + m)) := by
    rw [Nat.mul_add, ← List.drop_drop, List.take_append_drop]
  have len : ((s.env.cfBytes.drop (4 * j)).take (4 * m)).length = 4 * m := by
    rw [List.length_take, List.length_drop, h.bytes]
    omega
  have stored : guestWrite (cfDrained s p j (some (cfMoved p j))).mem (cfWordAddr (cfMoved p j))
      ((s.env.cfBytes.drop (4 * j)).take (4 * m)) =
        guestWrite s.mem p.addr.toNat (s.env.cfBytes.take (4 * (j + m))) := by
    rw [Nat.mul_add, ← guestWrite_take_add (by rw [h.bytes]; omega), cfWordAddr, done]
    rfl
  have loop := cfSliceLoop_read (s := cfDrained s p j (some (cfMoved p j))) (p := cfMoved p j) h.dir limit.ge ready
    bytes len
  rw [stored] at loop
  rw [cfSlice_of_loop (s := cfDrained s p j (some (cfMoved p j))) rfl (BitVec.le_def.2 (done.trans_le valid)) limit.ge
    loop, cfPendingAfter_cfMoved valid]
  rfl

/-- After `k` slices that found words left, all of them full, the transfer is pending with `k` slices' words moved. -/
theorem cfSlices_pending {k : Nat} (left : k = 0 ∨ k * s.cfg.cfSliceWords < p.words.toNat) :
    cfSlices k s = cfDrained s p (k * s.cfg.cfSliceWords) (some (cfMoved p (k * s.cfg.cfSliceWords))) := by
  induction k with
  | zero => rw [Nat.zero_mul, cfDrained_zero h, cfSlices]
  | succ k ih =>
    have more : k * s.cfg.cfSliceWords + s.cfg.cfSliceWords < p.words.toNat := by
      rw [← Nat.succ_mul]
      exact left.resolve_left (Nat.succ_ne_zero k)
    rw [cfSlices_succ, ih (.inr (by omega)), cfSlice_drained h (m := s.cfg.cfSliceWords) (by omega) (by omega),
      if_neg more.ne, Nat.succ_mul]

/-- The last slice moves the words that are left. -/
theorem cfSlices_complete (pos : 1 ≤ s.cfg.cfSliceWords) :
    cfSlices (max 1 ((p.words.toNat + s.cfg.cfSliceWords - 1) / s.cfg.cfSliceWords)) s =
      cfDrained s p p.words.toNat none := by
  have slices := lt_sliceCount_iff pos p.words.toNat
  generalize max 1 ((p.words.toNat + s.cfg.cfSliceWords - 1) / s.cfg.cfSliceWords) = n at slices ⊢
  obtain ⟨k, rfl⟩ : ∃ k, n = k + 1 := Nat.exists_eq_succ_of_ne_zero ((slices 0).2 (.inl rfl)).ne'
  have before := (slices k).1 (Nat.lt_succ_self k)
  have enough : p.words.toNat ≤ k * s.cfg.cfSliceWords + s.cfg.cfSliceWords := by
    have last := mt (slices (k + 1)).2 (lt_irrefl _)
    rw [Nat.succ_mul] at last
    omega
  have valid : k * s.cfg.cfSliceWords ≤ p.words.toNat := by
    obtain rfl | more := before
    · omega
    · exact more.le
  have sum : k * s.cfg.cfSliceWords + (p.words.toNat - k * s.cfg.cfSliceWords) = p.words.toNat := by omega
  rw [cfSlices_succ, cfSlices_pending h before,
    cfSlice_drained h (m := p.words.toNat - k * s.cfg.cfSliceWords) valid (by omega), if_pos sum, sum]

end

/-- Settles O48: the state after each slice by `cfSlices_pending`, and after the last by `cfSlices_complete`. -/
theorem cfTransferCompletes : Obligations.CfTransferCompletes := by
  rintro s p bs n pos pending dir start ready rfl bytes fits wf rfl
  have h : CfReadReady s p := ⟨pending, dir, start, ready, bytes⟩
  have all : s.env.cfBytes.take (4 * p.words.toNat) = s.env.cfBytes := List.take_of_length_le bytes.le
  rw [cfSlices_complete h pos]
  refine ⟨fun k hk => ?_, rfl, ?_, ?_, fun i hi => ?_, fun x outside => ?_⟩
  · rw [cfSlices_pending h ((lt_sliceCount_iff pos _ k).1 hk)]
    exact Option.some_ne_none _
  · exact List.drop_of_length_le (by rw [ready, List.length_replicate])
  · exact List.drop_of_length_le bytes.le
  · rw [cfDrained, all]
    exact guestByte_guestWrite_same _ _ i wf (by rw [bytes]; exact fits) hi
  · rw [cfDrained, all]
    exact guestByte_guestWrite_other _ _ x wf outside

end Sys2Proof.Proofs

namespace Sys2Proof.Proofs

open Sys2Proof.Machine

/-! ## The ticker -/

/-- A step of the ticker is what its work makes of the state it starts in. -/
theorem tickerStep_congr {f g : State → State} {s : State} (h : f s = g s) : tickerStep f s = tickerStep g s := by
  rw [tickerStep, tickerStep, h]

/-- Some channel matches the clock (R193). -/
theorem hptFired_iff (s : State) :
    hptFired s = true ↔ ∃ n < s.hpt.length, (hptAt s n).active = true ∧ (hptAt s n).ocv = s.clock := by
  simp only [hptFired, List.any_eq_true, List.mem_iff_getElem, hptMatches, Bool.and_eq_true, beq_iff_eq]
  constructor
  · rintro ⟨ch, ⟨n, hn, rfl⟩, active, due⟩
    exact ⟨n, hn, by simpa [hptAt, hn] using ⟨active, due⟩⟩
  · rintro ⟨n, hn, h⟩
    exact ⟨s.hpt[n], ⟨n, hn, rfl⟩, by simpa [hptAt, hn] using h⟩

theorem raiseHpt_fatal {s : State} (line : s.cfg.hptIrq.toNat < s.cfg.maxIrq) (fired : Bool) :
    (raiseHpt fired s).fatal = s.fatal := by
  cases fired with
  | false => rfl
  | true => exact trigger_fatal_of_lt line

theorem tickWalk_cfg (s : State) : (tickWalk s).cfg = s.cfg := SameBut.tickWalk s .cfg (by simp)

/-- The TIMERS sub-step: the timers, then the latches, the lines and the coalesced trigger (R370, R371). -/
theorem exec_tick_timers {s w : State} (running : s.agents.cpuHalted = false) (safe : s.fatal = none)
    (line : s.cfg.hptIrq.toNat < s.cfg.maxIrq) (phase : s.agents.tickPhase = .timers)
    (hw : w = tickWalk (hptCompare (timersAdvance s))) :
    exec .tick s = .next (setPhase .cf (raiseHpt (hptFired (timersAdvance s)) w)) := by
  subst hw
  have step : tickPhaseStep s = timersPhase s := by rw [tickPhaseStep, phase]
  have sound : (timersPhase s).fatal = none := by
    rw [timersPhase, setPhase_fatal, raiseHpt_fatal (by rwa [tickWalk_cfg]), tickWalk_fatal]
    exact safe
  exact (tickerStep_congr step).trans (tickerStep_of_safe running safe sound)

/-- Settles O60: each phase of `tick` is the effect of its sub-steps, none of which finds a violation. -/
theorem tickerRun : Obligations.TickerRun := by
  intro s running safe hptLine cfLine
  refine ⟨fun phase => ?_, fun phase => ?_, fun phase => ?_, ?_⟩
  · have walks : execAll [.hptTick, .icTickWalk] (timersAdvance s) =
        some (tickWalk (hptCompare (timersAdvance s))) := by
      simp only [execAll, exec_hptTick (s := timersAdvance s) running safe,
        exec_icTickWalk (s := hptCompare (timersAdvance s)) running safe]
    refine ⟨_, _, _, exec_tmrTick running safe, walks, exec_tick_timers running safe hptLine phase rfl,
      fun noMatch => ?_, fun someMatch => ⟨_, rfl, ?_⟩⟩
    · have still : hptFired (timersAdvance s) = false := by
        rw [Bool.eq_false_iff, Ne, hptFired_iff]
        rintro ⟨n, hn, due⟩
        exact noMatch n hn due
      rw [still]
      rfl
    · rw [(hptFired_iff _).2 someMatch, raiseHpt, if_pos rfl, tickWalk_cfg]
      rfl
  · exact tickerStep_congr (by rw [tickPhaseStep, phase])
  · exact tickerStep_congr (by rw [tickPhaseStep, phase])
  · have sound : (cfIrqPhase s).fatal = none := (trigger_fatal_of_lt cfLine).trans safe
    exact ⟨_, rfl, tickerStep_of_safe running safe sound⟩

end Sys2Proof.Proofs

namespace Sys2Proof.Proofs

open Sys2Proof.Machine

/-! ## The flash banks: one cycle -/

/-- A change of one bank writes its changed record back. -/
theorem modBank_eq (b : Nat) (f : FlashBank → FlashBank) (s : State) :
    modBank b f s = { s with flash := s.flash.set b (f (bankAt s b)) } := by
  rw [modBank, Laws.modify_eq_set _ _ _ ⟨.read, 0, []⟩]
  rfl

/-- A write to a bank as every statement about one says it: the bank becomes `f` of what it was, and nothing else
changes. -/
theorem exec_modBank {i : Instr} {s : State} {b : Nat} {f : FlashBank → FlashBank} (hb : b < s.flash.length)
    (h : exec i s = wrote (modBank b f s)) :
    ∃ t, exec i s = .next t ∧ t = { s with flash := t.flash, ret := some 0 } ∧ t.flash.length = s.flash.length ∧
      (∀ j, j ≠ b → bankAt t j = bankAt s j) ∧ bankAt t b = f (bankAt s b) :=
  ⟨_, h, rfl, modBank_length b f s, fun _ hj => bankAt_modBank_ne hj f s,
    (bankAt_modBank b b f s hb).trans (if_pos rfl)⟩

/-- Where a write is the row an operation stands for, the row's effect is what happens (R329). -/
theorem flashRow_chosen {s : State} {b off : Nat} {v : Word} {w : FlashWrite} (chosen : writeRow s b off v = w)
    (eff : State → State) : flashRow w eff b off v s = wrote (eff s) :=
  congrArg wrote (if_pos chosen)

/-! ### The rows of the transition function (R329) -/

/-- The cycle `(l, x)`, written out (R95, R311). -/
theorem flashCycleIs_iff {c : Cfg} {off : Nat} {v : Word} {l : Nat} {x : Half} :
    flashCycleIs c off v l x = true ↔
      BitVec.ofNat 32 (off / 2) &&& c.flashCmdMask = BitVec.ofNat 32 l ∧ v.setWidth 16 = x := by
  simp only [flashCycleIs, flashOffIs, flashWoff, flashValue, Bool.and_eq_true, beq_iff_eq]

theorem flashCycleIs_ne {v : Word} {x y : Half} (value : v.setWidth 16 = x) (h : x ≠ y) {c : Cfg} {off l : Nat} :
    ¬ flashCycleIs c off v l y = true := fun cycle => h (value.symm.trans (flashCycleIs_iff.1 cycle).2)

/-- The rows chosen by offset and value: the state, the cycle's two literals, and the row. -/
def cycleRows : List (FlashState × Nat × Half × FlashWrite) :=
  [(.read, 0x555, 0xAA, .unlock1), (.unlock2, 0x2AA, 0x55, .unlock2), (.unlocked, 0x555, 0xA0, .cmdProgram),
   (.unlocked, 0x555, 0x80, .cmdErase), (.erase1, 0x555, 0xAA, .eraseUnlock1), (.erase2, 0x2AA, 0x55, .eraseUnlock2),
   (.erase3, 0x555, 0x10, .chipErase)]

/-- The rows chosen by the value alone. -/
def valueRows : List (FlashState × Half × FlashWrite) :=
  [(.read, 0x80, .bypassEraseEntry), (.read, 0xA0, .bypassProgramEntry), (.erase3, 0x30, .blockErase),
   (.unlockBypassErase, 0x10, .bypassChipErase), (.unlockBypassErase, 0x30, .bypassBlockErase)]

section

variable {s : State} {b off : Nat} {v : Word} {st : FlashState} {w : FlashWrite}

theorem writeRow_of_cycle {l : Nat} {x : Half} (en : s.cfg.flashSmEnabled = true) (hst : (bankAt s b).state = st)
    (cycle : flashCycleIs s.cfg off v l x = true) (row : (st, l, x, w) ∈ cycleRows) : writeRow s b off v = w := by
  have value := (flashCycleIs_iff.1 cycle).2
  simp only [cycleRows, List.mem_cons, List.not_mem_nil, or_false, Prod.mk.injEq] at row
  obtain ⟨rfl, rfl, rfl, rfl⟩ | ⟨rfl, rfl, rfl, rfl⟩ | ⟨rfl, rfl, rfl, rfl⟩ | ⟨rfl, rfl, rfl, rfl⟩ |
    ⟨rfl, rfl, rfl, rfl⟩ | ⟨rfl, rfl, rfl, rfl⟩ | ⟨rfl, rfl, rfl, rfl⟩ := row <;>
    rw [writeRow, hst, selectFlashWrite, if_pos en]
  case inr.inr.inr.inl => exact (if_neg (flashCycleIs_ne value (by decide))).trans (if_pos cycle)
  all_goals exact if_pos cycle

theorem writeRow_of_value {x : Half} (en : s.cfg.flashSmEnabled = true) (hst : (bankAt s b).state = st)
    (value : v.setWidth 16 = x) (row : (st, x, w) ∈ valueRows) : writeRow s b off v = w := by
  simp only [valueRows, List.mem_cons, List.not_mem_nil, or_false, Prod.mk.injEq] at row
  obtain ⟨rfl, rfl, rfl⟩ | ⟨rfl, rfl, rfl⟩ | ⟨rfl, rfl, rfl⟩ | ⟨rfl, rfl, rfl⟩ | ⟨rfl, rfl, rfl⟩ := row <;>
    simp [writeRow, hst, selectFlashWrite, en, flashCycleIs, flashValue, value]

/-- Every write in PROGRAM is the data (R325). -/
theorem writeRow_of_program (en : s.cfg.flashSmEnabled = true) (hst : (bankAt s b).state = .program) :
    writeRow s b off v = .programData := by
  simp [writeRow, hst, selectFlashWrite, en]

/-- Every write is data with the state machine disabled (R330). -/
theorem writeRow_of_disabled (dis : s.cfg.flashSmEnabled = false) : writeRow s b off v = .pass := by
  simp [writeRow, selectFlashWrite, dis]

end

/-! ### The command cycles (O49) -/

/-- The state after a cycle that only changes the state of a bank. -/
def inState (b : Nat) (st : FlashState) (s : State) : State := (setFlash b st s).withRet (some 0)

theorem inState_eq (b : Nat) (st : FlashState) (s : State) :
    inState b st s = { s with flash := s.flash.set b { bankAt s b with state := st }, ret := some 0 } := by
  rw [inState, setFlash, modBank_eq]
  rfl

theorem inState_length (b : Nat) (st : FlashState) (s : State) :
    (inState b st s).flash.length = s.flash.length := modBank_length ..

theorem inState_inState (b : Nat) (st st' : FlashState) (s : State) :
    inState b st' (inState b st s) = inState b st' s := by
  simp only [inState, setFlash, modBank, State.withRet, State.withFlash, List.modify_modify_eq]
  rfl

theorem bankAt_inState {b : Nat} {s : State} (hb : b < s.flash.length) (st : FlashState) :
    bankAt (inState b st s) b = { bankAt s b with state := st } :=
  (bankAt_modBank b b _ s hb).trans (if_pos rfl)

theorem bankAt_inState_ne {b j : Nat} (hj : j ≠ b) (st : FlashState) (s : State) :
    bankAt (inState b st s) j = bankAt s j := bankAt_modBank_ne hj _ s

/-- The next state of a row that only changes the state (R313 to R318, R321, R322). -/
def nextState : FlashWrite → Option FlashState
  | .unlock1 => some .unlock2
  | .unlock2 => some .unlocked
  | .cmdProgram => some .program
  | .cmdErase => some .erase1
  | .eraseUnlock1 => some .erase2
  | .eraseUnlock2 => some .erase3
  | .bypassEraseEntry => some .unlockBypassErase
  | .bypassProgramEntry => some .program
  | _ => none

theorem exec_command {s : State} {b off : Nat} {v : Word} {w : FlashWrite} {st : FlashState}
    (chosen : writeRow s b off v = w) (next : nextState w = some st) :
    exec (w.op b off v) s = .next (inState b st s) := by
  cases w with
  | unlock1 | unlock2 | cmdProgram | cmdErase | eraseUnlock1 | eraseUnlock2 | bypassEraseEntry | bypassProgramEntry =>
    cases next
    exact flashRow_chosen chosen (setFlash b _)
  | _ => cases next

/-- Settles O49: each cycle is the row of its state, and the row changes nothing but the state. -/
theorem flashCommandCycles : Obligations.FlashCommandCycles := by
  intro s b off v lit go en hlit hgo
  have goes : ∀ st, go st = inState b st s := fun st => (hgo st).trans (inState_eq b st s).symm
  have byCycle : ∀ {st l x w next}, (bankAt s b).state = st → lit l x → (st, l, x, w) ∈ cycleRows →
      nextState w = some next → exec (w.op b off v) s = .next (go next) := fun hst cycle row next =>
    (exec_command (writeRow_of_cycle en hst (flashCycleIs_iff.2 ((hlit _ _).1 cycle)) row) next).trans
      (congrArg _ (goes _).symm)
  have byValue : ∀ {st x w next}, (bankAt s b).state = st → v.setWidth 16 = x → (st, x, w) ∈ valueRows →
      nextState w = some next → exec (w.op b off v) s = .next (go next) := fun hst value row next =>
    (exec_command (writeRow_of_value en hst value row) next).trans (congrArg _ (goes _).symm)
  exact ⟨fun hst cycle => byCycle (w := .unlock1) hst cycle (by decide) rfl,
    fun hst cycle => byCycle (w := .unlock2) hst cycle (by decide) rfl,
    fun hst cycle => byCycle (w := .cmdProgram) hst cycle (by decide) rfl,
    fun hst cycle => byCycle (w := .cmdErase) hst cycle (by decide) rfl,
    fun hst cycle => byCycle (w := .eraseUnlock1) hst cycle (by decide) rfl,
    fun hst cycle => byCycle (w := .eraseUnlock2) hst cycle (by decide) rfl,
    fun hst value => byValue (w := .bypassEraseEntry) hst value (by decide) rfl,
    fun hst value => byValue (w := .bypassProgramEntry) hst value (by decide) rfl⟩

/-! ### The erases (O50) -/

/-- Beyond the bank a canonical image lists nothing, and reads as erased. -/
theorem memRead_beyond {size : Nat} {m : Memory} (hm : Memory.wf (some Config.erasedByte) size m = true) {x : Nat}
    (hx : size ≤ x) : memRead 0xFF m x = 0xFF := by
  refine memRead_unlisted _ _ _ fun e he => ?_
  have := (((memory_wf_iff ..).1 hm).2 e he).2
  omega

/-- An erase cut off at the end of the bank erases the whole range, as far as a read tells. -/
theorem memRead_memErase_min {size : Nat} {m : Memory} (hm : Memory.wf (some Config.erasedByte) size m = true)
    (lo hi x : Nat) :
    memRead 0xFF (memErase lo (min hi size) m) x = if lo ≤ x ∧ x < hi then 0xFF else memRead 0xFF m x := by
  rw [memRead_memErase (memory_wf_rising hm)]
  by_cases hx : x < size
  · simp [hx]
  · rw [memRead_beyond hm (Nat.le_of_not_lt hx), ite_self, ite_self]

theorem memRead_memErase_all {size : Nat} {m : Memory} (hm : Memory.wf (some Config.erasedByte) size m = true)
    (x : Nat) : memRead 0xFF (memErase 0 size m) x = 0xFF := by
  rw [memRead_memErase (memory_wf_rising hm)]
  split
  · rfl
  · exact memRead_beyond hm (by omega)

/-- Both chip erases are the effect R319 gives (R319, R323). -/
theorem exec_chipErase {s : State} {b off : Nat} {v : Word} {i : Instr} (en : s.cfg.flashSmEnabled = true)
    (h : (i = .flChipErase b off v ∧ (bankAt s b).state = .erase3 ∧
          BitVec.ofNat 32 (off / 2) &&& s.cfg.flashCmdMask = 0x555 ∧ v.setWidth 16 = (0x10 : Half)) ∨
        (i = .flBypassChipErase b off v ∧ (bankAt s b).state = .unlockBypassErase ∧
          v.setWidth 16 = (0x10 : Half))) : exec i s = wrote (chipErase b s) := by
  obtain ⟨rfl, hst, cycle⟩ | ⟨rfl, hst, value⟩ := h
  · exact flashRow_chosen (w := .chipErase) (writeRow_of_cycle en hst (flashCycleIs_iff.2 cycle) (by decide)) _
  · exact flashRow_chosen (w := .bypassChipErase) (writeRow_of_value en hst value (by decide)) _

/-- Both block erases are the effect R320 gives (R320, R324). -/
theorem exec_blockErase {s : State} {b off : Nat} {v : Word} {i : Instr} (en : s.cfg.flashSmEnabled = true)
    (h : (i = .flBlockErase b off v ∧ (bankAt s b).state = .erase3 ∧ v.setWidth 16 = (0x30 : Half)) ∨
        (i = .flBypassBlockErase b off v ∧ (bankAt s b).state = .unlockBypassErase ∧
          v.setWidth 16 = (0x30 : Half))) : exec i s = wrote (blockErase b off s) := by
  obtain ⟨rfl, hst, value⟩ | ⟨rfl, hst, value⟩ := h
  · exact flashRow_chosen (w := .blockErase) (writeRow_of_value en hst value (by decide)) _
  · exact flashRow_chosen (w := .bypassBlockErase) (writeRow_of_value en hst value (by decide)) _

/-- Settles O50: an erase changes one bank's record, and the erased range reads as 0xFF. -/
theorem flashErases : Obligations.FlashErases := by
  intro s b off v en hs hb
  obtain ⟨-, images⟩ := hs
  refine ⟨fun i hi => ?_, fun i hi => ?_⟩
  · obtain ⟨t, next, frame, length, others, bank⟩ := exec_modBank hb (exec_chipErase en hi)
    refine ⟨t, next, frame, length, others, ?_⟩
    rw [bank]
    exact ⟨rfl, rfl, memRead_memErase_all (images b)⟩
  · obtain ⟨t, next, frame, length, others, bank⟩ := exec_modBank hb (exec_blockErase en hi)
    refine ⟨t, next, frame, length, others, ?_⟩
    rw [bank]
    exact ⟨rfl, rfl, memRead_memErase_min (images b) _ _⟩

/-! ### The stores (O51) -/

/-- The value whose entry a write to an image leaves out is the one an unlisted byte reads as. -/
theorem eq_of_erasedByte (d : Byte) (h : some Config.erasedByte = some d) : d = 0xFF := (Option.some.inj h).symm

/-- Two bytes written to an image, at two places. -/
theorem memRead_memWrite2 {size : Nat} {m : Memory} (hm : Memory.wf (some Config.erasedByte) size m = true)
    {a a' : Nat} (ha : a < size) (lo hi : Byte) (x : Nat) :
    memRead 0xFF (memWrite (some Config.erasedByte) (memWrite (some Config.erasedByte) m a lo) a' hi) x =
      if x = a' then hi else if x = a then lo else memRead 0xFF m x := by
  rw [memRead_memWrite eq_of_erasedByte (memory_wf_rising (memWrite_wf lo hm ha)),
    memRead_memWrite eq_of_erasedByte (memory_wf_rising hm)]

/-- Programming a word makes the AND of each of its two bytes (R325). -/
theorem memRead_programWord {size w : Nat} {m : Memory} (hm : Memory.wf (some Config.erasedByte) size m = true)
    (fits : 2 * w + 1 < size) (v : Word) (x : Nat) :
    memRead 0xFF (programWord size w (flashValue v) m) x =
      if x = 2 * w then memRead 0xFF m x &&& v.extractLsb' 0 8
      else if x = 2 * w + 1 then memRead 0xFF m x &&& v.extractLsb' 8 8
      else memRead 0xFF m x := by
  have low (lo hi : Byte) : (le16 lo hi &&& flashValue v).extractLsb' 0 8 = lo &&& v.extractLsb' 0 8 := by
    rw [BitVec.extractLsb'_and, le16, BitVec.extractLsb'_append_eq_right, flashValue,
      BitVec.extractLsb'_setWidth_of_le (by decide)]
  have high (lo hi : Byte) : (le16 lo hi &&& flashValue v).extractLsb' 8 8 = hi &&& v.extractLsb' 8 8 := by
    rw [BitVec.extractLsb'_and, le16, BitVec.extractLsb'_append_eq_left, flashValue,
      BitVec.extractLsb'_setWidth_of_le (by decide)]
  rw [programWord, if_pos fits]
  dsimp only
  rw [memRead_memWrite2 hm (by omega), low, high]
  by_cases first : x = 2 * w
  · subst first
    simp [Config.erasedByte]
  · by_cases second : x = 2 * w + 1
    · subst second
      simp [Config.erasedByte]
    · simp [first, second]

/-- The pass-through write stores its two low bytes, inside the bank (R330). -/
theorem memRead_passBytes {size off : Nat} {m : Memory} (hm : Memory.wf (some Config.erasedByte) size m = true)
    (fits : off < size) (v : Word) (x : Nat) :
    memRead 0xFF (passBytes size off v m) x =
      if x = off then v.extractLsb' 0 8
      else if x = off + 1 ∧ off + 1 < size then v.extractLsb' 8 8
      else memRead 0xFF m x := by
  rw [passBytes, if_pos fits]
  dsimp only
  split
  · rename_i both
    rw [memRead_memWrite2 hm fits]
    by_cases first : x = off
    · simp [first]
    · simp [first, both]
  · rename_i last
    rw [memRead_memWrite eq_of_erasedByte (memory_wf_rising hm)]
    simp [last]

/-- The data cycle in PROGRAM (R325). -/
theorem exec_programData {s : State} {b : Nat} (off : Nat) (v : Word) (en : s.cfg.flashSmEnabled = true)
    (hst : (bankAt s b).state = .program) : exec (.flProgramData b off v) s = wrote (programData b off v s) :=
  flashRow_chosen (writeRow_of_program en hst) _

/-- Settles O51: both stores change one bank's record, and its image as a programmed word or two bytes do. -/
theorem flashStores : Obligations.FlashStores := by
  intro s b off v hs hb
  obtain ⟨-, images⟩ := hs
  refine ⟨fun en fits hst => ?_, fun dis fits => ?_⟩
  · obtain ⟨t, next, frame, length, others, bank⟩ := exec_modBank hb (exec_programData off v en hst)
    refine ⟨t, next, frame, length, others, ?_⟩
    rw [bank]
    exact ⟨rfl, rfl, memRead_programWord (images b) fits v⟩
  · have stored : exec (.flPassW b off v) s = wrote (passWrite b off v s) :=
      flashRow_chosen (writeRow_of_disabled dis) _
    obtain ⟨t, next, frame, length, others, bank⟩ := exec_modBank hb stored
    refine ⟨t, next, frame, length, others, ?_⟩
    rw [bank]
    exact ⟨rfl, rfl, memRead_passBytes (images b) fits v⟩

/-! ### The unexpected cycle (O52) -/

/-- Settles O52: in each state a cycle that is none of its rows is the unexpected one. -/
theorem flashBadCycle : Obligations.FlashBadCycle := by
  intro s b off v lit en hlit unexpected
  have other : ∀ {l x}, ¬ lit l x → ¬ flashCycleIs s.cfg off v l x = true := fun no cycle =>
    no ((hlit _ _).2 (flashCycleIs_iff.1 cycle))
  have row : writeRow s b off v = .badCycle := by
    cases hst : (bankAt s b).state <;> rw [hst] at unexpected <;> rw [writeRow, hst, selectFlashWrite, if_pos en]
    case read =>
      obtain ⟨noUnlock, noErase, noProgram⟩ := unexpected
      exact (if_neg (other noUnlock)).trans ((if_neg noErase).trans (if_neg noProgram))
    case unlock2 | erase1 | erase2 => exact if_neg (other unexpected)
    case unlocked =>
      obtain ⟨noProgram, noErase⟩ := unexpected
      exact (if_neg (other noProgram)).trans (if_neg (other noErase))
    case erase3 =>
      obtain ⟨noChip, noBlock⟩ := unexpected
      exact (if_neg (other noChip)).trans (if_neg noBlock)
    case unlockBypassErase =>
      obtain ⟨noChip, noBlock⟩ := unexpected
      exact (if_neg noChip).trans (if_neg noBlock)
    case program => exact unexpected.elim
  have effect : exec (.flBadCycle b off v) s = wrote (badCycle b off v s) := flashRow_chosen row _
  rw [effect, badCycle, modBank_eq]
  rfl

/-! ### Reads (O53) -/

/-- The bytes of a word put together from four (R12). -/
theorem le32_byte (b0 b1 b2 b3 : Byte) :
    (le32 b0 b1 b2 b3).extractLsb' 0 8 = b0 ∧ (le32 b0 b1 b2 b3).extractLsb' 8 8 = b1 ∧
      (le32 b0 b1 b2 b3).extractLsb' 16 8 = b2 ∧ (le32 b0 b1 b2 b3).extractLsb' 24 8 = b3 := by
  unfold le32
  refine ⟨?_, ?_, ?_, ?_⟩
  · exact BitVec.extractLsb'_append_eq_right
  · rw [BitVec.extractLsb'_append_eq_of_le (by decide)]
    exact BitVec.extractLsb'_append_eq_right
  · rw [BitVec.extractLsb'_append_eq_of_le (by decide), BitVec.extractLsb'_append_eq_of_le (by decide)]
    exact BitVec.extractLsb'_append_eq_right
  · rw [BitVec.extractLsb'_append_eq_of_le (by decide), BitVec.extractLsb'_append_eq_of_le (by decide)]
    exact BitVec.extractLsb'_append_eq_left

/-- Byte `k` of a read is the bank's byte `k` places on, 0 beyond the bank (R311). -/
theorem bankRead_byte (s : State) (b off : Nat) {k : Nat} (hk : k < 4) :
    (bankRead s b off).extractLsb' (8 * k) 8 =
      if off + k < s.cfg.bankSize b then memRead 0xFF (bankAt s b).image (off + k) else 0 := by
  obtain ⟨first, second, third, fourth⟩ := le32_byte (bankByte s.cfg s b off) (bankByte s.cfg s b (off + 1))
    (bankByte s.cfg s b (off + 2)) (bankByte s.cfg s b (off + 3))
  match k, hk with
  | 0, _ => exact first
  | 1, _ => exact second
  | 2, _ => exact third
  | 3, _ => exact fourth

theorem exec_flRead {s : State} {b : Nat} (off : Nat) (en : s.cfg.flashSmEnabled = true)
    (idle : (bankAt s b).state ≠ .blockEraseBusy) : exec (.flRead b off) s = answer (bankRead s b off) s :=
  if_pos (by simp [selectFlashRead, en, idle])

theorem exec_flPassR {s : State} {b : Nat} (off : Nat) (dis : s.cfg.flashSmEnabled = false) :
    exec (.flPassR b off) s = answer (bankRead s b off) s :=
  if_pos (by simp [selectFlashRead, dis])

theorem exec_flBusyRead {s : State} {b : Nat} (off : Nat) (en : s.cfg.flashSmEnabled = true)
    (busy : (bankAt s b).state = .blockEraseBusy) :
    exec (.flBusyRead b off) s = answer (busyValue s b) (busyRead b s) :=
  if_pos (selectFlashRead_busy.2 ⟨en, busy⟩)

/-- Settles O53: data reads answer the bank's bytes; a busy read counts, and the one after the last ends the erase. -/
theorem flashReads : Obligations.FlashReads := by
  intro s b off hb
  refine ⟨fun i hi => ⟨bankRead s b off, ?_, fun k hk => bankRead_byte s b off hk⟩, fun en busy => ⟨fun more => ?_,
    fun done => ?_⟩⟩
  · obtain ⟨rfl, en, idle⟩ | ⟨rfl, dis⟩ := hi
    · exact exec_flRead off en idle
    · exact exec_flPassR off dis
  · rw [exec_flBusyRead off en busy, busyValue, if_pos more, busyRead, if_pos more, modBank_eq]
    rfl
  · have last := Nat.not_lt.2 done
    rw [exec_flBusyRead off en busy, busyValue, if_neg last, busyRead, if_neg last, modBank_eq]
    rfl

end Sys2Proof.Proofs

namespace Sys2Proof.Proofs

open Sys2Proof.Machine

/-! ## The flash banks: sequences of accesses -/

/-- Bank `b` takes commands: the state machine runs, both command offsets are in the bank and pass FLASH_CMD_MASK, and
the bank's handler is the one selected in all its window. -/
structure CommandBank (c : Cfg) (b : Nat) : Prop where
  wf : c.wf = true
  enabled : c.flashSmEnabled = true
  passes555 : 0x555 &&& c.flashCmdMask = 0x555
  passes2AA : 0x2AA &&& c.flashCmdMask = 0x2AA
  exists_bank : b < c.nBanks
  room : 0xAAB < c.bankSize b
  selects : ∀ off < c.bankSize b, ∃ h, selectHandler c (c.bankBase b + BitVec.ofNat 32 off) = some h ∧ h.kind = .flash b

/-- The address of word `k` of a bank. -/
def wordAddr (c : Cfg) (b k : Nat) : Word := c.bankBase b + BitVec.ofNat 32 (2 * k)

theorem view_flashState (s : State) (b : Nat) : s.view.flashState b = (bankAt s b).state := by
  simp only [View.flashState, State.view, bankAt, List.getD_eq_getElem?_getD, List.getElem?_map]
  cases s.flash[b]? <;> rfl

section

variable {s : State} {b k : Nat} {v : Word}

/-- An access at a word of the bank is the row the bank's state makes it (R329). -/
theorem decodeAccess_wordAddr (ready : CommandBank s.cfg b) (hk : 2 * k < s.cfg.bankSize b) (write : Bool) (v : Word) :
    decodeAccess s.view (wordAddr s.cfg b k) write v =
      if write then (writeRow s b (2 * k) v).op b (2 * k) v
      else (selectFlashRead s.cfg (bankAt s b).state).op b (2 * k) := by
  obtain ⟨h, selected, kind⟩ := ready.selects _ hk
  have inBank : s.cfg.inBank b (2 * k) = true := by simp [Cfg.inBank, ready.exists_bank, hk]
  rw [writeRow, ← view_flashState]
  calc decodeAccess s.view (wordAddr s.cfg b k) write v
      = decodeFlash s.view b (s.view.cfg.bankBase b + BitVec.ofNat 32 (2 * k)) write v :=
        decodeAccess_handler (w := s.view) selected kind write v
    _ = _ := decodeFlash_inBank (w := s.view) ready.wf inBank write v

theorem access_write (ready : CommandBank s.cfg b) (hk : 2 * k < s.cfg.bankSize b) {w : FlashWrite}
    (chosen : writeRow s b (2 * k) v = w) : access (wordAddr s.cfg b k) true v s = exec (w.op b (2 * k) v) s := by
  rw [access, decodeAccess_wordAddr ready hk, if_pos rfl, chosen]

/-- A read of a word in READ answers the bank's data (R312). -/
theorem access_read (ready : CommandBank s.cfg b) (hk : 2 * k < s.cfg.bankSize b) (hst : (bankAt s b).state = .read) :
    access (wordAddr s.cfg b k) false 0 s = .next { s with ret := some (bankRead s b (2 * k)) } := by
  have row : selectFlashRead s.cfg (bankAt s b).state = .data := by simp [selectFlashRead, ready.enabled, hst]
  rw [access, decodeAccess_wordAddr ready hk, if_neg Bool.false_ne_true, row]
  exact exec_flRead _ ready.enabled (by simp [hst])

theorem writes_cons {a : Word} {rest : List (Word × Word)} {t : State} (h : access a true v s = .next t) :
    writes ((a, v) :: rest) s = writes rest t := by
  rw [writes, h]

/-- At a command offset, the cycle with the literals of the offset and the value is the one written (R95). -/
theorem flashCycleIs_command (ready : CommandBank s.cfg b) (hk : k ∈ [0x555, 0x2AA]) {x : Half}
    (hv : v.setWidth 16 = x) : flashCycleIs s.cfg (2 * k) v k x = true := by
  refine flashCycleIs_iff.2 ⟨?_, hv⟩
  rw [Nat.mul_div_cancel_left k Nat.two_pos]
  simp only [List.mem_cons, List.not_mem_nil, or_false] at hk
  obtain rfl | rfl := hk
  · exact ready.passes555
  · exact ready.passes2AA

/-- Every row chosen by an offset has one of the two command offsets. -/
theorem cycleRows_offset : ∀ row ∈ cycleRows, row.2.1 ∈ [0x555, 0x2AA] := by decide

theorem CommandBank.fits (ready : CommandBank s.cfg b) (hk : k ∈ [0x555, 0x2AA]) : 2 * k < s.cfg.bankSize b := by
  have := ready.room
  simp only [List.mem_cons, List.not_mem_nil, or_false] at hk
  omega

/-- A command at its address is its row of the table. -/
theorem writeRow_command {st : FlashState} {w : FlashWrite} (ready : CommandBank s.cfg b)
    (hst : (bankAt s b).state = st) (row : (st, k, v.setWidth 16, w) ∈ cycleRows) : writeRow s b (2 * k) v = w :=
  writeRow_of_cycle ready.enabled hst (flashCycleIs_command ready (cycleRows_offset _ row) rfl) row

theorem access_command {st : FlashState} {w : FlashWrite} (ready : CommandBank s.cfg b)
    (hst : (bankAt s b).state = st) (row : (st, k, v.setWidth 16, w) ∈ cycleRows) :
    access (wordAddr s.cfg b k) true v s = exec (w.op b (2 * k) v) s :=
  access_write ready (ready.fits (cycleRows_offset _ row)) (writeRow_command ready hst row)

/-- The first command of a sequence, in the bank's state. -/
theorem writes_first {st next : FlashState} {rest : List (Word × Word)} (w : FlashWrite)
    (ready : CommandBank s.cfg b) (hst : (bankAt s b).state = st)
    (row : (st, k, v.setWidth 16, w) ∈ cycleRows) (hnext : nextState w = some next) :
    writes ((wordAddr s.cfg b k, v) :: rest) s = writes rest (inState b next s) :=
  writes_cons ((access_command ready hst row).trans (exec_command (writeRow_command ready hst row) hnext))

/-- A further command, in the state the one before it left. -/
theorem writes_next {st next : FlashState} {rest : List (Word × Word)} (w : FlashWrite)
    (ready : CommandBank s.cfg b) (hb : b < s.flash.length)
    (row : (st, k, v.setWidth 16, w) ∈ cycleRows) (hnext : nextState w = some next) :
    writes ((wordAddr s.cfg b k, v) :: rest) (inState b st s) = writes rest (inState b next s) :=
  (writes_first w (s := inState b st s) ready (by rw [bankAt_inState hb]) row hnext).trans
    (by rw [inState_inState])

/-- A half word of a read is two bytes of the bank (R311). -/
theorem bankRead_half {off : Nat} (hk : k + 1 < 4) (fits : off + k + 1 < s.cfg.bankSize b) :
    (bankRead s b off).extractLsb' (8 * k) 16 =
      memRead 0xFF (bankAt s b).image (off + k + 1) ++ memRead 0xFF (bankAt s b).image (off + k) := by
  have low := (bankRead_byte s b off (Nat.lt_of_succ_lt hk)).trans (if_pos (Nat.lt_of_succ_lt fits))
  have high := (bankRead_byte s b off hk).trans (if_pos fits)
  rw [← Nat.add_assoc] at high
  rw [← low, ← high]
  exact (BitVec.extractLsb'_append_extractLsb'_eq_extractLsb' (len₂ := 8) (Nat.mul_succ 8 k)).symm

end

/-! ### The program round trip (O54) -/

/-- The unlock sequence and the program command, from READ to PROGRAM. -/
theorem writes_program {s : State} {b : Nat} (ready : CommandBank s.cfg b) (hb : b < s.flash.length)
    (hst : (bankAt s b).state = .read) (rest : List (Word × Word)) :
    writes ((wordAddr s.cfg b 0x555, 0xAA) :: (wordAddr s.cfg b 0x2AA, 0x55) :: (wordAddr s.cfg b 0x555, 0xA0) ::
        rest) s = writes rest (inState b .program s) :=
  (writes_first .unlock1 ready hst (by decide) rfl).trans <|
    (writes_next .unlock2 ready hb (by decide) rfl).trans (writes_next .cmdProgram ready hb (by decide) rfl)

/-- Settles O54: the commands lead to PROGRAM, the data cycle ANDs the word, and a read in READ is the bank's data. -/
theorem flashProgramRoundTrip : Obligations.FlashProgramRoundTrip := by
  intro s b w v place wf en passes555 passes2AA hs hb hlen hst room fits hplace selects
  obtain rfl : place = wordAddr s.cfg b := funext hplace
  have ready : CommandBank s.cfg b := ⟨wf, en, passes555, passes2AA, hlen ▸ hb, room, selects⟩
  have inProgram : (bankAt (inState b .program s) b).state = .program := by rw [bankAt_inState hb]
  obtain ⟨t, next, frame, -, others, bank⟩ :=
    exec_modBank ((inState_length b .program s).symm ▸ hb)
      (exec_programData (2 * w) v (s := inState b .program s) en inProgram)
  have sameCfg : t.cfg = s.cfg := (congrArg State.cfg frame).trans rfl
  have written : access (wordAddr s.cfg b w) true v (inState b .program s) = .next t :=
    (access_write (s := inState b .program s) ready (Nat.lt_of_succ_lt fits)
      (writeRow_of_program en inProgram)).trans next
  have state : (bankAt t b).state = .read := congrArg (·.state) bank
  have image : ∀ x, memRead 0xFF (bankAt t b).image x =
      if x = 2 * w then memRead 0xFF (bankAt s b).image x &&& v.extractLsb' 0 8
      else if x = 2 * w + 1 then memRead 0xFF (bankAt s b).image x &&& v.extractLsb' 8 8
      else memRead 0xFF (bankAt s b).image x := by
    intro x
    have word : flashWoff (2 * w) = w := Nat.mul_div_cancel_left w Nat.two_pos
    rw [bank, bankAt_inState hb, word]
    exact memRead_programWord (hs.2 b) fits v x
  have answered : access (wordAddr s.cfg b w) false 0 t = .next { t with ret := some (bankRead t b (2 * w)) } := by
    rw [← sameCfg]
    exact access_read (sameCfg ▸ ready) (sameCfg ▸ Nat.lt_of_succ_lt fits) state
  refine ⟨t, (writes_program ready hb hst _).trans (writes_cons written), state,
    fun j hj => (others j hj).trans (bankAt_inState_ne hj _ s), image, _, answered, ?_, fun more => ?_⟩
  · have low := (image (2 * w)).trans (if_pos rfl)
    have high := (image (2 * w + 1)).trans ((if_neg (by omega)).trans (if_pos rfl))
    refine (bankRead_half (k := 0) (by decide) (sameCfg ▸ fits)).trans ?_
    rw [Nat.add_zero (2 * w), low, high, ← BitVec.and_append,
      BitVec.extractLsb'_append_extractLsb'_eq_extractLsb' (start₁ := 0) (start₂ := 8) rfl]
  · have above : ∀ x, 2 * w + 1 < x → memRead 0xFF (bankAt t b).image x = memRead 0xFF (bankAt s b).image x :=
      fun x hx => (image x).trans ((if_neg (by omega)).trans (if_neg (by omega)))
    refine (bankRead_half (k := 2) (by decide) (sameCfg ▸ more)).trans ?_
    rw [above _ (by omega), above _ (by omega)]

/-! ### The chip erase sequence (O55) -/

/-- The two unlock sequences around the erase command, from READ to the last cycle of an erase. -/
theorem writes_erase {s : State} {b : Nat} (ready : CommandBank s.cfg b) (hb : b < s.flash.length)
    (hst : (bankAt s b).state = .read) (rest : List (Word × Word)) :
    writes ((wordAddr s.cfg b 0x555, 0xAA) :: (wordAddr s.cfg b 0x2AA, 0x55) :: (wordAddr s.cfg b 0x555, 0x80) ::
        (wordAddr s.cfg b 0x555, 0xAA) :: (wordAddr s.cfg b 0x2AA, 0x55) :: rest) s =
      writes rest (inState b .erase3 s) :=
  (writes_first .unlock1 ready hst (by decide) rfl).trans <|
    (writes_next .unlock2 ready hb (by decide) rfl).trans <|
    (writes_next .cmdErase ready hb (by decide) rfl).trans <|
    (writes_next .eraseUnlock1 ready hb (by decide) rfl).trans (writes_next .eraseUnlock2 ready hb (by decide) rfl)

/-- Settles O55: the commands lead to the last cycle of an erase, and that cycle erases the bank. -/
theorem flashChipEraseSequence : Obligations.FlashChipEraseSequence := by
  intro s b place wf en passes555 passes2AA hs hb hlen hst room hplace selects
  obtain rfl : place = wordAddr s.cfg b := funext hplace
  have ready : CommandBank s.cfg b := ⟨wf, en, passes555, passes2AA, hlen ▸ hb, room, selects⟩
  have ready3 : CommandBank (inState b .erase3 s).cfg b := ready
  have inErase3 : (bankAt (inState b .erase3 s) b).state = .erase3 := by rw [bankAt_inState hb]
  have erased : exec (.flChipErase b (2 * 0x555) 0x10) (inState b .erase3 s) =
      wrote (chipErase b (inState b .erase3 s)) :=
    flashRow_chosen (w := .chipErase) (writeRow_command ready3 inErase3 (by decide)) _
  obtain ⟨t, next, -, -, others, bank⟩ := exec_modBank ((inState_length ..).symm ▸ hb) erased
  have written := (access_command (w := .chipErase) ready3 inErase3 (by decide)).trans next
  refine ⟨t, (writes_erase ready hb hst _).trans (writes_cons written), congrArg (·.state) bank,
    fun j hj => (others j hj).trans (bankAt_inState_ne hj _ s), fun x => ?_⟩
  rw [bank, bankAt_inState hb]
  exact memRead_memErase_all (hs.2 b) x

end Sys2Proof.Proofs

namespace Sys2Proof.Proofs

open Sys2Proof.Machine

/-! ## The halt (O22) -/

/-- What the ticker moves besides the countdowns is the same in both states: the clock, the timers and the HPTimers, the
tick phase, the pending CF transfer (R370). -/
def Still (s t : State) : Prop :=
  t.clock = s.clock ∧ t.tmr = s.tmr ∧ t.hpt = s.hpt ∧ t.agents.tickPhase = s.agents.tickPhase ∧
    t.cf.pendingDma = s.cf.pendingDma

theorem trigger_still (id d : Word) (s : State) : Still s (trigger id d s) := by
  simp [Still]

/-- While the CPU is halted neither it nor the ticker has a step (R84, R370): an operation that completes is a TRIG, or
it changes neither what the ticker moves nor a line. -/
theorem exec_halted {i : Instr} {s t : State} (halted : s.agents.cpuHalted = true) (agent : agentOf i ≠ .cpu)
    (h : exec i s = .next t) :
    (∃ id d, i = .icTrigger id d ∧ t = trigger id d s) ∨ (Still s t ∧ t.ic = s.ic) := by
  have ticks {f : State → State} : tickerStep f s ≠ .next t := fun e => by
    obtain ⟨running, -⟩ := (tickerStep_eq_next f s t).1 e
    simp [halted] at running
  cases i with
  | icTrigger id d =>
    cases h
    exact .inl ⟨id, d, rfl, rfl⟩
  | icTickWalk | tmrTick | hptTick | cfDmaSlice | cfDmaIrq | tick => exact absurd h ticks
  | cfIdeDone =>
    cases h
    obtain ⟨e, he | he⟩ := ideCompleted_cases s
    all_goals
      rw [he]
      exact .inr ⟨⟨rfl, rfl, rfl, rfl, rfl⟩, rfl⟩
  | dispCompose =>
    cases h
    obtain ⟨u, c, e, -⟩ := compose_shape s
    rw [e]
    exact .inr ⟨⟨rfl, rfl, rfl, rfl, rfl⟩, rfl⟩
  | dispInvalidate | hostHalt | hostRelease =>
    cases h
    exact .inr ⟨⟨rfl, rfl, rfl, rfl, rfl⟩, rfl⟩
  | _ => exact absurd rfl agent

/-- An owed trigger performed leaves the queue and sets its own line's countdown only; found fatal, it changes neither
(R83, R142, R403). -/
theorem owed_still (q : TriggerCall) (rest : List TriggerCall) (u : State) :
    let t := orFatal u (trigger q.id q.delay (u.withAgents { u.agents with cpuQueue := rest }))
    Still u t ∧ ∀ j, (lineAt t j).sched = (lineAt u j).sched ∨ (t.agents.cpuQueue = rest ∧ q.id.toNat = j) := by
  intro t
  obtain e | ⟨r, e⟩ := orFatal_cases u (trigger q.id q.delay (u.withAgents { u.agents with cpuQueue := rest }))
  · rw [show t = _ from e]
    refine ⟨trigger_still _ _ (u.withAgents { u.agents with cpuQueue := rest }), fun j => ?_⟩
    by_cases line : j = q.id.toNat
    · exact .inr ⟨by rw [trigger_agents]; rfl, line.symm⟩
    · exact .inl (trigger_sched_other line)
  · rw [show t = _ from e]
    exact ⟨⟨rfl, rfl, rfl, rfl, rfl⟩, fun _ => .inl rfl⟩

/-- Settles O22: the move is a TRIG, an owed trigger, or one that changes no line and nothing the ticker moves. -/
theorem haltStopsTime : Obligations.HaltStopsTime := by
  intro s t halted h
  suffices Still s t ∧ ∀ j, (lineAt t j).sched = (lineAt s j).sched ∨
      (∃ q rest, s.agents.cpuQueue = q :: rest ∧ t.agents.cpuQueue = rest ∧ q.id.toNat = j) ∨
      ∃ bytes id d, nextEvent s = .request bytes ∧ decode s.view bytes = .ok (.icTrigger id d) ∧ id.toNat = j by
    obtain ⟨⟨clock, tmr, hpt, phase, transfer⟩, countdowns⟩ := this
    exact ⟨clock, tmr, hpt, phase, transfer, countdowns⟩
  obtain ⟨-, ⟨bytes, i, hb, hd, hcpu, he⟩ | ⟨q, rest, u, hq, hu, ht⟩ | ⟨addr, bytes, -, rfl⟩ | ⟨pc, -, rfl⟩⟩ :=
    step_cases h
  · have agent : agentOf i ≠ .cpu := fun cpu => by simpa [halted] using hcpu cpu
    obtain ⟨id, d, rfl, rfl⟩ | ⟨still, lines⟩ := exec_halted (s := popEvent s) halted agent he
    · refine ⟨trigger_still id d (popEvent s), fun j => ?_⟩
      by_cases line : j = id.toNat
      · exact .inr (.inr ⟨bytes, id, d, hb, hd, line.symm⟩)
      · exact .inl (trigger_sched_other (s := popEvent s) line)
    · exact ⟨still, fun j => .inl (by rw [lineAt, lines]; rfl)⟩
  · have owed : Still s t ∧ ∀ j, (lineAt t j).sched = (lineAt s j).sched ∨
        (t.agents.cpuQueue = rest ∧ q.id.toNat = j) := by
      obtain rfl | rfl := hu <;> exact ht ▸ owed_still q rest _
    obtain ⟨still, countdowns⟩ := owed
    exact ⟨still, fun j => (countdowns j).imp_right fun ⟨queue, line⟩ => .inl ⟨q, rest, hq, queue, line⟩⟩
  · exact ⟨⟨rfl, rfl, rfl, rfl, rfl⟩, fun _ => .inl rfl⟩
  · exact ⟨⟨rfl, rfl, rfl, rfl, rfl⟩, fun _ => .inl rfl⟩

end Sys2Proof.Proofs

namespace Sys2Proof.Proofs

open Sys2Proof.Machine

/-! ## The display registers and the host (O56) -/

theorem palValue_palEntry (v : Word) : palValue (palEntry v) = v := le32_bytesLe32 v

theorem exec_pal4R {i : Nat} {e : PaletteEntry} {s : State} (h : s.disp.pal4[i]? = some e) :
    exec (.pal4R i) s = answer (palValue e) s := by
  simp [exec, execPal4R, h]

theorem exec_pal8R {i : Nat} {e : PaletteEntry} {s : State} (h : s.disp.pal8[i]? = some e) :
    exec (.pal8R i) s = answer (palValue e) s := by
  simp [exec, execPal8R, h]

/-- Settles O56: an entry packs back into the value written, and every other clause is the operation's own update. -/
theorem displayAndHost : Obligations.DisplayAndHost := fun _ v _ =>
  ⟨⟨palEntry v, palValue_palEntry v, rfl, rfl⟩, fun _ => exec_pal4R, fun _ => exec_pal8R,
    rfl, rfl, rfl, rfl, rfl, rfl, rfl⟩

/-! ## The span of a composite -/

/-- In the first composite every row is dirty (R357). -/
theorem rowDirty_first {s : State} (first : s.disp.seenBmp = none) (rb : List (List Byte))
    (ry : Option (List (List Byte))) (y : Nat) : rowDirty s rb ry y = true := by
  simp [rowDirty, first]

/-- After an invalidate every row is dirty (R357). -/
theorem rowDirty_invalidated {s : State} (all : s.disp.invalidateAll = true) (rb : List (List Byte))
    (ry : Option (List (List Byte))) (y : Nat) : rowDirty s rb ry y = true := by
  simp [rowDirty, all]

theorem dirtyRows_eq_nil {s : State} {rb : List (List Byte)} {ry : Option (List (List Byte))}
    (clean : ∀ y < s.cfg.bmpH, rowDirty s rb ry y = false) : dirtyRows s rb ry = [] := by
  simpa [dirtyRows, List.filter_eq_nil_iff] using clean

/-- `first` and `last` are the ends of the dirty rows (R359). -/
structure DirtySpan (s : State) (first last : Nat) : Prop where
  first_dirty : rowDirty s (bmpRows s) (yuvRows s) first = true
  last_dirty : rowDirty s (bmpRows s) (yuvRows s) last = true
  le : first ≤ last
  lt : last < s.cfg.bmpH
  between : ∀ y < s.cfg.bmpH, rowDirty s (bmpRows s) (yuvRows s) y = true → first ≤ y ∧ y ≤ last

section
variable {s : State} {first last : Nat}

theorem DirtySpan.head? (h : DirtySpan s first last) :
    (dirtyRows s (bmpRows s) (yuvRows s)).head? = some first := by
  rw [dirtyRows, List.head?_filter, List.find?_range_eq_some]
  refine ⟨h.first_dirty, List.mem_range.2 (h.le.trans_lt h.lt), fun y before => ?_⟩
  rw [Bool.not_eq_true', Bool.eq_false_iff]
  exact fun dirty => before.not_ge (h.between y (before.trans (h.le.trans_lt h.lt)) dirty).1

theorem DirtySpan.getLast? (h : DirtySpan s first last) :
    (dirtyRows s (bmpRows s) (yuvRows s)).getLast? = some last := by
  obtain ⟨-, dirty, -, lt, between⟩ := h
  rw [dirtyRows, List.getLast?_filter, List.find?_eq_some_iff_getElem]
  have place : s.cfg.bmpH - 1 - last < (List.range s.cfg.bmpH).reverse.length := by
    rw [List.length_reverse, List.length_range]
    omega
  refine ⟨dirty, s.cfg.bmpH - 1 - last, place, ?_, fun j after => ?_⟩
  · rw [List.getElem_reverse, List.getElem_range, List.length_range]
    omega
  · rw [List.getElem_reverse, List.getElem_range, List.length_range, Bool.not_eq_true', Bool.eq_false_iff]
    exact fun beyond => absurd (between _ (by omega) beyond).2 (by omega)

/-- The span drawn and reported (R359, R360). -/
theorem compose_span (h : DirtySpan s first last) :
    (compose s).calls = .blitRows first last :: (sinkResize s).calls ∧
      (compose s).surface = redraw first last (outputRow s (bmpRows s) (yuvRows s)) (sinkResize s).surface := by
  simp [compose, sinkBlit, h.head?, h.getLast?, emit]

end

theorem sinkResize_later {s : State} (seen : s.disp.seenBmp ≠ none) : sinkResize s = s := by
  simp [sinkResize, seen]

theorem sinkResize_first {s : State} (first : s.disp.seenBmp = none) :
    sinkResize s = emit (.resize s.cfg.bmpW s.cfg.bmpH)
      (s.withSurface (List.replicate s.cfg.bmpH (List.replicate s.cfg.bmpW 0))) := by
  simp [sinkResize, first]

/-- With no dirty row a later composite calls nothing and draws nothing (R359). -/
theorem compose_clean {s : State} (clean : ∀ y < s.cfg.bmpH, rowDirty s (bmpRows s) (yuvRows s) y = false)
    (seen : s.disp.seenBmp ≠ none) : (compose s).surface = s.surface ∧ (compose s).calls = s.calls := by
  simp [compose, dirtyRows_eq_nil clean, sinkResize_later seen, sinkBlit]

theorem length_redraw (first last : Nat) (row : Nat → List Word) (surface : List (List Word)) :
    (redraw first last row surface).length = surface.length := List.length_mapIdx

theorem getElem?_redraw (first last : Nat) (row : Nat → List Word) {surface : List (List Word)} {y : Nat}
    (h : y < surface.length) :
    (redraw first last row surface)[y]? = some (if first ≤ y ∧ y ≤ last then row y else surface[y]) := by
  simp [redraw, h]

/-- A redraw from the first row to the last replaces the surface. -/
theorem redraw_all {n : Nat} (row : Nat → List Word) {surface : List (List Word)} (h : surface.length = n) :
    redraw 0 (n - 1) row surface = (List.range n).map row := by
  apply List.ext_getElem
  · simp [length_redraw, h]
  · intro y hy _
    rw [length_redraw, h] at hy
    simp [redraw, show y ≤ n - 1 by omega]

/-- When the first and the last row are dirty, a composite draws and reports every row. -/
theorem compose_all {s : State} (rows : 0 < s.cfg.bmpH)
    (first_dirty : rowDirty s (bmpRows s) (yuvRows s) 0 = true)
    (last_dirty : rowDirty s (bmpRows s) (yuvRows s) (s.cfg.bmpH - 1) = true)
    (surface : s.disp.seenBmp ≠ none → s.surface.length = s.cfg.bmpH) :
    (compose s).calls = .blitRows 0 (s.cfg.bmpH - 1) :: (sinkResize s).calls ∧
      (compose s).surface = (List.range s.cfg.bmpH).map (outputRow s (bmpRows s) (yuvRows s)) := by
  obtain ⟨calls, drawn⟩ := compose_span (s := s)
    ⟨first_dirty, last_dirty, by omega, by omega, fun y _ _ => ⟨by omega, by omega⟩⟩
  refine ⟨calls, drawn.trans (redraw_all _ ?_)⟩
  by_cases first : s.disp.seenBmp = none
  · simp [sinkResize_first first, emit]
  · rw [sinkResize_later first, surface first]

namespace Display

/-- Settles O57: the span by `compose_span`; the first composite redraws the whole of the surface it has resized. -/
theorem compose : Obligations.Compose := by
  intro s
  refine ⟨Machine.compose s, rfl, ?_, ?_, compose_clean, fun first last le lt first_dirty last_dirty between =>
    ⟨fun seen => ?_, fun new => ?_⟩⟩
  · obtain ⟨u, c, e, -⟩ := compose_shape s
    rw [e]
    rfl
  · obtain ⟨u, c, e, -⟩ := compose_shape s
    rw [e]
    rfl
  · obtain ⟨calls, drawn⟩ := compose_span ⟨first_dirty, last_dirty, le, lt, between⟩
    rw [calls, drawn, sinkResize_later seen]
    exact ⟨rfl, length_redraw .., fun y hy => getElem?_redraw _ _ _ hy⟩
  · have every := rowDirty_first new (bmpRows s) (yuvRows s)
    obtain ⟨top, -⟩ := between 0 (by omega) (every 0)
    obtain ⟨-, bottom⟩ := between (s.cfg.bmpH - 1) (by omega) (every _)
    obtain rfl : first = 0 := by omega
    obtain rfl : last = s.cfg.bmpH - 1 := by omega
    obtain ⟨calls, drawn⟩ := compose_all (by omega) (every 0) (every _) (fun seen => absurd new seen)
    rw [calls, drawn, sinkResize_first new]
    exact ⟨rfl, by omega, rfl, rfl⟩

end Display

end Sys2Proof.Proofs

namespace Sys2Proof.Proofs

open Sys2Proof.Machine

/-! ## The bytes of the planes -/

/-- Byte `x` of bitmap row `k` as a composite reads it (R358, R359). -/
def bmpByte (s : State) (k x : Nat) : Byte :=
  guestAnswer (s.mem.after k) (s.disp.bmpAddr.toNat + k * s.cfg.bmpPitch + x)

/-- Byte `x` of YUV row `k` as a composite reads it, after the bitmap (R358, R359). -/
def yuvByte (s : State) (k x : Nat) : Byte :=
  guestAnswer (s.mem.after (s.cfg.bmpH + k)) (s.disp.yuvAddr.toNat + k * s.cfg.yuvPitch + x)

section
variable {s : State} {x y : Nat}

theorem byteOf_bmpRows (hy : y < s.cfg.bmpH) (hx : x < s.cfg.bmpPitch) :
    byteOf ((bmpRows s).getD y []) x = bmpByte s y x := Laws.byteOf_planeRows hy hx

theorem yuvRows_absent (h : s.disp.yuvAddr = 0) : yuvRows s = none := if_pos h

theorem yuvRows_present (h : s.disp.yuvAddr ≠ 0) :
    yuvRows s = some (planeRows (s.mem.after s.cfg.bmpH) s.disp.yuvAddr s.cfg.yuvPitch s.cfg.yuvH) := if_neg h

/-! ### The dirty rows (R357) -/

/-- Two lists of one length differ where one of their entries does. -/
theorem ne_iff_getElem? {α : Type} {l m : List α} {n : Nat} (hl : l.length = n) (hm : m.length = n) :
    l ≠ m ↔ ∃ x < n, l[x]? ≠ m[x]? := by
  constructor
  · contrapose!
    intro same
    apply List.ext_getElem?
    intro x
    by_cases hx : x < n
    · exact same x hx
    · rw [List.getElem?_eq_none (by omega), List.getElem?_eq_none (by omega)]
  · rintro ⟨x, -, h⟩ rfl
    exact h rfl

/-- A row seen before is not the row read when one of its bytes is not. -/
theorem planeRow_ne_iff {seen : List (List Byte)} {g : Guest} {a : Word} {rows pitch k : Nat}
    (shape : planeShape rows pitch seen) (hk : k < rows) :
    seen[k]? ≠ (planeRows g a pitch rows)[k]? ↔
      ∃ x < pitch, (seen[k]?.bind (·[x]?)) ≠ some (guestAnswer (g.after k) (a.toNat + k * pitch + x)) := by
  obtain ⟨length, pitches⟩ := shape
  have present : k < seen.length := length ▸ hk
  have width : seen[k].length = pitch := pitches _ (List.getElem_mem present)
  rw [Laws.planeRows_getElem? hk, List.getElem?_eq_getElem present, (Option.some_injective _).ne_iff,
    ne_iff_getElem? width (guestRead_length ..)]
  exact exists_congr fun x => and_congr_right fun hx => by simp [guestRead, hx]

/-- A place of the bitmap scaled to the YUV plane is inside that plane (R353). -/
theorem scaled_lt {i m n : Nat} (pos : 0 < n) (h : i < m) : i * n / m < n := by
  rw [Nat.div_lt_iff_lt_mul (by omega), Nat.mul_comm]
  exact Nat.mul_lt_mul_of_pos_left h pos

/-- A byte of bitmap row `k` is not the one seen (R357). -/
def BmpRowChanged (s : State) (k : Nat) : Prop :=
  ∃ seen x, s.disp.seenBmp = some seen ∧ x < s.cfg.bmpPitch ∧ (seen[k]?.bind (·[x]?)) ≠ some (bmpByte s k x)

/-- A byte of YUV row `k` is not the one seen (R357). -/
def YuvRowChanged (s : State) (k : Nat) : Prop :=
  ∃ seen x, s.disp.seenYuv = some seen ∧ x < s.cfg.yuvPitch ∧ (seen[k]?.bind (·[x]?)) ≠ some (yuvByte s k x)

/-- The bitmap's part of R357. -/
theorem bmpRow_changed_iff (shape : s.shapeOk) (hy : y < s.cfg.bmpH) :
    (s.disp.seenBmp = none ∨ s.disp.seenBmp.bind (·[y]?) ≠ (bmpRows s)[y]?) ↔
      s.disp.seenBmp = none ∨ BmpRowChanged s y := by
  obtain ⟨-, -, -, -, -, -, -, -, -, -, planes, -, -⟩ := shape
  cases hseen : s.disp.seenBmp with
  | none => simp
  | some seen =>
    simpa [hseen, bmpRows, BmpRowChanged, bmpByte] using
      planeRow_ne_iff (g := s.mem) (a := s.disp.bmpAddr) (planes seen hseen) hy

/-- The YUV plane's part of R357. -/
theorem yuvRow_changed_iff (shape : s.shapeOk) (hy : y < s.cfg.bmpH) :
    ((yuvRows s).isSome ≠ s.disp.seenYuv.isSome ∨
        ((yuvRows s).isSome = true ∧
          s.disp.seenYuv.bind (·[yuvRowOf s.cfg y]?) ≠ (yuvRows s).bind (·[yuvRowOf s.cfg y]?))) ↔
      ¬ (s.disp.yuvAddr ≠ 0 ↔ s.disp.seenYuv ≠ none) ∨
      (s.disp.yuvAddr ≠ 0 ∧ 0 < s.cfg.yuvH ∧ YuvRowChanged s (yuvRowOf s.cfg y)) := by
  obtain ⟨-, -, -, -, -, -, -, -, -, -, -, planes, -⟩ := shape
  by_cases present : s.disp.yuvAddr = 0#32
  · simp [yuvRows_absent present, present]
  rw [yuvRows_present present]
  cases hseen : s.disp.seenYuv with
  | none => simp [present]
  | some seen =>
    by_cases height : 0 < s.cfg.yuvH
    · have row := planeRow_ne_iff (g := s.mem.after s.cfg.bmpH) (a := s.disp.yuvAddr)
        (k := yuvRowOf s.cfg y) (planes seen hseen) (scaled_lt height hy)
      simpa [hseen, present, height, YuvRowChanged, yuvByte] using row
    · obtain ⟨length, -⟩ := planes seen hseen
      obtain zero : s.cfg.yuvH = 0 := by omega
      obtain rfl : seen = [] := List.eq_nil_of_length_eq_zero (length.trans zero)
      simp [present, planeRows, zero]

/-- When a row is dirty (R357). -/
theorem rowDirty_iff (shape : s.shapeOk) (hy : y < s.cfg.bmpH) :
    rowDirty s (bmpRows s) (yuvRows s) y = true ↔
      s.disp.invalidateAll = true ∨ s.disp.seenBmp = none ∨ BmpRowChanged s y ∨
      ¬ (s.disp.yuvAddr ≠ 0 ↔ s.disp.seenYuv ≠ none) ∨
      (s.disp.yuvAddr ≠ 0 ∧ 0 < s.cfg.yuvH ∧ YuvRowChanged s (yuvRowOf s.cfg y)) := by
  rw [← or_assoc (a := s.disp.seenBmp = none), ← bmpRow_changed_iff shape hy, ← yuvRow_changed_iff shape hy]
  simp only [rowDirty, Bool.or_eq_true, Bool.and_eq_true, decide_eq_true_eq, bne_iff_ne, Option.isNone_iff_eq_none,
    or_assoc]

/-! ### The pixels (R353, R354, R355) -/

theorem toNat_append_byte {w : Nat} (v : BitVec w) (b : Byte) : (v ++ b).toNat = v.toNat * 256 + b.toNat := by
  rw [BitVec.toNat_append, ← Nat.shiftLeft_add_eq_or_of_lt b.isLt, Nat.shiftLeft_eq]

/-- The packed word of three bytes (R354). -/
theorem rgb_bytes (r g b : Byte) : rgb r.toNat g.toNat b.toNat = (0 : Byte) ++ r ++ g ++ b := by
  apply BitVec.eq_of_toNat_eq
  rw [rgb, toNat_append_byte, toNat_append_byte, toNat_append_byte, BitVec.toNat_ofNat,
    show (0 : Byte).toNat = 0 from rfl]
  omega

/-- A pixel with a nonzero index is its palette entry's, opaque (R354). -/
theorem pixel_palette {pal : List PaletteEntry} {e : PaletteEntry} (hy : y < s.cfg.bmpH) (hx : x < s.cfg.bmpPitch)
    (index : bmpByte s y x ≠ 0) (entry : pal[(bmpByte s y x).toNat]? = some e) (ry : Option (List (List Byte))) :
    pixel s.cfg pal (bmpRows s) ry y x = (0 : Byte) ++ e.r ++ e.g ++ e.b := by
  rw [← byteOf_bmpRows hy hx] at index entry
  refine (if_neg index).trans ?_
  rw [List.getD_eq_getElem?_getD, entry]
  exact rgb_bytes e.r e.g e.b

/-- A pixel with index 0 is black without a YUV plane (R354). -/
theorem pixel_black (pal : List PaletteEntry) (hy : y < s.cfg.bmpH) (hx : x < s.cfg.bmpPitch)
    (index : bmpByte s y x = 0) (absent : s.disp.yuvAddr = 0) :
    pixel s.cfg pal (bmpRows s) (yuvRows s) y x = 0 := by
  rw [← byteOf_bmpRows hy hx] at index
  rw [yuvRows_absent absent]
  exact if_pos index

/-- The three places of a pixel's sample among the four bytes that it shares (R353). -/
theorem layout_lt {c : Cfg} (planes : c.planesOk = true) (xs : Nat) :
    (if xs % 2 = 0 then c.yuvLayout.y0 else c.yuvLayout.y1) < 4 ∧ c.yuvLayout.u < 4 ∧ c.yuvLayout.v < 4 := by
  obtain ⟨-, -, -, -, -, layout, -⟩ := (planesOk_iff c).1 planes
  refine ⟨?_, layout _ (by simp), layout _ (by simp)⟩
  split <;> exact layout _ (by simp)

/-- A place of the four bytes that two pixels share is inside its row (R353). -/
theorem samplePlace_lt {c : Cfg} {xs k : Nat} (planes : c.planesOk = true) (hxs : xs < c.yuvW) (hk : k < 4) :
    4 * (xs / 2) + k < 2 * c.yuvW := by
  obtain ⟨-, even, -⟩ := (planesOk_iff c).1 planes
  omega

/-- A pixel with index 0 over a YUV plane is the conversion of its sample (R353, R354, R355). -/
theorem pixel_sample {xs ys : Nat} (pal : List PaletteEntry) (planes : s.cfg.planesOk = true) (hy : y < s.cfg.bmpH)
    (hx : x < s.cfg.bmpW) (index : bmpByte s y x = 0) (present : s.disp.yuvAddr ≠ 0) (width : 0 < s.cfg.yuvW)
    (height : 0 < s.cfg.yuvH) (hxs : xs = x * s.cfg.yuvW / s.cfg.bmpW) (hys : ys = y * s.cfg.yuvH / s.cfg.bmpH) :
    pixel s.cfg pal (bmpRows s) (yuvRows s) y x = yuv2rgb s.cfg.yuvMatrix
      (yuvByte s ys (4 * (xs / 2) + if xs % 2 = 0 then s.cfg.yuvLayout.y0 else s.cfg.yuvLayout.y1))
      (yuvByte s ys (4 * (xs / 2) + s.cfg.yuvLayout.u)) (yuvByte s ys (4 * (xs / 2) + s.cfg.yuvLayout.v)) := by
  obtain ⟨stride, -, pitch, -⟩ := (planesOk_iff s.cfg).1 planes
  have column : xs < s.cfg.yuvW := hxs ▸ scaled_lt width hx
  have row : ys < s.cfg.yuvH := hys ▸ scaled_lt height hy
  have sample {k : Nat} (hk : k < 4) : byteOf
      ((planeRows (s.mem.after s.cfg.bmpH) s.disp.yuvAddr s.cfg.yuvPitch s.cfg.yuvH).getD ys []) (4 * (xs / 2) + k) =
        yuvByte s ys (4 * (xs / 2) + k) := by
    rw [Laws.byteOf_planeRows row ((samplePlace_lt planes column hk).trans_le pitch), Guest.after_after]
    rfl
  rw [← byteOf_bmpRows hy (hx.trans_le stride)] at index
  obtain ⟨luma, u, v⟩ := layout_lt planes xs
  rw [← sample luma, ← sample u, ← sample v, yuvRows_present present]
  refine (if_pos index).trans ?_
  subst hxs hys
  exact if_pos ⟨column, row⟩

end

theorem length_outputRow (s : State) (rb : List (List Byte)) (ry : Option (List (List Byte))) (y : Nat) :
    (outputRow s rb ry y).length = s.cfg.bmpW := by
  simp [outputRow]

theorem getElem?_outputRow {s : State} {x : Nat} (hx : x < s.cfg.bmpW) (rb : List (List Byte))
    (ry : Option (List (List Byte))) (y : Nat) :
    (outputRow s rb ry y)[x]? = some (pixel s.cfg s.disp.pal8 rb ry y x) := by
  simp [outputRow, hx]

/-- The packed word of three clipped components, over the integers (R10, R354). -/
theorem rgb_clip (i j k : Int) :
    rgb (clip i) (clip j) (clip k) =
      BitVec.ofInt 32 (max 0 (min 255 i) * 2 ^ 16 + max 0 (min 255 j) * 2 ^ 8 + max 0 (min 255 k)) := by
  have clipped (n : Int) : max 0 (min 255 n) = (clip n : Int) := (Int.toNat_of_nonneg (le_max_left _ _)).symm
  rw [rgb, ← BitVec.ofInt_natCast, clipped, clipped, clipped]
  push_cast
  rfl

/-- Settles O58: the dirty rows by `rowDirty_iff`, and each pixel by the lemma of its case of R354. -/
theorem rowsAndPixels : Obligations.RowsAndPixels := by
  intro s bmp yuv y ys shape planes hy hys hbmp hyuv
  obtain rfl : bmp = bmpByte s := funext₂ hbmp
  obtain rfl : yuv = yuvByte s := funext₂ hyuv
  refine ⟨hys ▸ rowDirty_iff shape hy, length_outputRow .., fun x hx => ⟨_, getElem?_outputRow hx _ _ _, ?_⟩⟩
  obtain ⟨stride, -⟩ := (planesOk_iff s.cfg).1 planes
  have inRow : x < s.cfg.bmpPitch := hx.trans_le stride
  refine ⟨fun e index entry => pixel_palette hy inRow index entry _, pixel_black _ hy inRow, ?_⟩
  intro index present width height xs l d e clip' hclip hxs hl hd he
  rw [pixel_sample _ planes hy hx index present width height hxs hys]
  constructor
  all_goals
    intro matrix
    rw [matrix, hl, hd, he]
    simp only [hclip]
    exact rgb_clip _ _ _

/-! ## The gray frame (O59) -/

theorem yuv2rgb_gray (m : YuvMatrix) : yuv2rgb m 0x80 0x80 0x80 = 0x00808080 := by
  cases m <;> rfl

/-- A row of the output where the bitmap reads as zeros and the YUV plane as (128, 128, 128) (R362). -/
theorem outputRow_gray {s : State} {y : Nat} (planes : s.cfg.planesOk = true) (width : 0 < s.cfg.yuvW)
    (height : 0 < s.cfg.yuvH) (present : s.disp.yuvAddr ≠ 0) (hy : y < s.cfg.bmpH)
    (zeros : ∀ y < s.cfg.bmpH, ∀ x < s.cfg.bmpW, bmpByte s y x = 0)
    (grays : ∀ y < s.cfg.yuvH, ∀ x < 2 * s.cfg.yuvW, yuvByte s y x = 0x80) :
    outputRow s (bmpRows s) (yuvRows s) y = List.replicate s.cfg.bmpW 0x00808080 := by
  refine List.eq_replicate_iff.2 ⟨length_outputRow .., fun pix hpix => ?_⟩
  obtain ⟨x, hx, rfl⟩ := List.mem_map.1 hpix
  rw [List.mem_range] at hx
  obtain ⟨luma, u, v⟩ := layout_lt planes (x * s.cfg.yuvW / s.cfg.bmpW)
  have gray {k : Nat} (hk : k < 4) :
      yuvByte s (y * s.cfg.yuvH / s.cfg.bmpH) (4 * (x * s.cfg.yuvW / s.cfg.bmpW / 2) + k) = 0x80 :=
    grays _ (scaled_lt height hy) _ (samplePlace_lt planes (scaled_lt width hx) hk)
  rw [pixel_sample _ planes hy hx (zeros y hy x hx) present width height rfl rfl, gray luma, gray u, gray v]
  exact yuv2rgb_gray _

/-- Settles O59: each of the three cases makes the first and the last row dirty, so every row is drawn. -/
theorem grayFrame : Obligations.GrayFrame := by
  intro s planes _ rows width height present surface redraws zeros grays
  obtain ⟨first_dirty, last_dirty⟩ : rowDirty s (bmpRows s) (yuvRows s) 0 = true ∧
      rowDirty s (bmpRows s) (yuvRows s) (s.cfg.bmpH - 1) = true := by
    obtain all | first | ends := redraws
    · exact ⟨rowDirty_invalidated all .., rowDirty_invalidated all ..⟩
    · exact ⟨rowDirty_first first .., rowDirty_first first ..⟩
    · exact ends
  obtain ⟨calls, drawn⟩ := compose_all rows first_dirty last_dirty surface
  refine ⟨compose s, rfl, drawn.trans ?_, calls.trans ?_⟩
  · refine List.eq_replicate_iff.2 ⟨by rw [List.length_map, List.length_range], fun row hrow => ?_⟩
    obtain ⟨y, hy, rfl⟩ := List.mem_map.1 hrow
    exact outputRow_gray planes width height present (List.mem_range.1 hy) zeros grays
  · split
    · rename_i first
      rw [sinkResize_first first]
      rfl
    · rename_i later
      rw [sinkResize_later later]

end Sys2Proof.Proofs

namespace Sys2Proof.Proofs

open Sys2Proof.Machine

/-! ## The fatal stop (O10, O21) -/

/-! ### Agents without a step (O10) -/

theorem step_afterFatal {s : State} {r : FatalReason} (stopped : s.fatal = some r) :
    step s = .fault (.fatalStop r) := by
  simp only [step, stopped]

/-- No new access is issued while the CPU is halted (R84). -/
theorem runInstr_cpu_halted {i : Instr} {s : State} (cpu : agentOf i = .cpu) (halted : s.agents.cpuHalted = true)
    (nothingOwed : s.agents.cpuQueue = []) : runInstr i s = .fault (.noStep .cpu) := by
  simp [runInstr, cpu, halted, nothingOwed]

/-- The ticker has no step while the CPU is halted (R370, R374). -/
theorem exec_ticker_halted {i : Instr} {s : State} (ticker : agentOf i = .ticker) (halted : s.agents.cpuHalted = true) :
    exec i s = .fault (.noStep .ticker) := by
  have still (f : State → State) : tickerStep f s = .fault (.noStep .ticker) := by simp [tickerStep, halted]
  cases i with
  | icTickWalk | tmrTick | hptTick | cfDmaSlice | cfDmaIrq | tick => exact still _
  | _ => cases ticker

/-- Settles O10: `step` looks at `fatal` first; a halted CPU has no access, a halted ticker no sub-step. -/
theorem agentsWithoutAStep : Obligations.AgentsWithoutAStep := by
  intro s
  refine ⟨fun r => step_afterFatal, fun bytes rest i running halted nothingOwed scheduled decoded => ?_⟩
  rw [step_request running (nextEvent_cons scheduled) decoded]
  refine ⟨fun cpu => runInstr_cpu_halted cpu halted nothingOwed, fun ticker => ?_⟩
  rw [runInstr_able (by simp [ticker])]
  exact exec_ticker_halted ticker halted

/-! ### The shared operations find no violation -/

theorem fatal_of_tickerStep {f : State → State} {s t : State} (kept : (f s).fatal = s.fatal)
    (h : tickerStep f s = .next t) : t.fatal = s.fatal := by
  obtain ⟨-, safe, rfl⟩ := (tickerStep_eq_next f s t).1 h
  rw [orFatal_none (kept.trans safe), kept]

theorem disableLine_fatal (s : State) (id : Nat) : (disableLine s id).fatal = s.fatal := by
  unfold disableLine
  dsimp only
  split <;> rfl

theorem unknownAccess_fatal (a : Word) (write : Bool) (v : Word) (s : State) :
    (unknownAccess a write v s).fatal = s.fatal := by
  unfold unknownAccess
  dsimp only
  split <;> rfl

theorem chswReadAssign_fatal (sub : ChswSub) (off : Nat) (v : Word) (s : State) :
    (chswReadAssign sub off v s).fatal = s.fatal := by
  unfold chswReadAssign
  split
  · rfl
  · split <;> rfl

theorem chswWriteAssign_fatal (sub : ChswSub) (off : Nat) (v : Word) (s : State) :
    (chswWriteAssign sub off v s).fatal = s.fatal := by
  unfold chswWriteAssign
  split <;> rfl

theorem sdTryData_fatal (s : State) : (sdTryData s).fatal = s.fatal := by
  obtain e | ⟨o, -, -, ⟨-, bs, env, -, e⟩ | ⟨-, c, e⟩⟩ := sdTryData_cases s <;> rw [e] <;> rfl

theorem sdTryIrq_fatal (s : State) : (sdTryIrq s).fatal = s.fatal := by
  obtain e | ⟨-, -, e⟩ := sdTryIrq_cases s
  · rw [e]
  · rw [e]
    rfl

theorem sdCommand_fatal (s : State) : (sdCommand s).fatal = s.fatal := by
  obtain ⟨c, e, r, shape⟩ := sdCommand_shape s
  rw [shape]
  rfl

theorem fatal_of_ideSignal {s t : State} (h : IdeSignal s t) : t.fatal = s.fatal := by
  obtain ⟨e, rfl | rfl⟩ := h <;> rfl

theorem ideRead_fatal (off : Nat) (s : State) : (ideRead off s).2.fatal = s.fatal := by
  obtain ⟨e, answered⟩ := ideRead_snd off s
  rw [answered]
  rfl

theorem compose_fatal (s : State) : (compose s).fatal = s.fatal := by
  obtain ⟨u, c, shape, -⟩ := compose_shape s
  rw [shape]
  rfl

theorem fatal_of_exec_onBank {i : Instr} {s t : State} (hi : onBank i = true) (h : exec i s = .next t) :
    t.fatal = s.fatal := by
  obtain ⟨⟨b, off, write, v⟩, hi⟩ := Option.isSome_iff_exists.1 (onBank_eq_isSome i ▸ hi)
  obtain ⟨f, c, r, e⟩ := exec_flashAccess hi s
  cases e.symm.trans h
  rfl

theorem cfIrqPhase_fatal {s : State} (ids : s.cfg.idsOk = true) : (cfIrqPhase s).fatal = s.fatal :=
  trigger_fatal_of_lt (lt_maxIrq_of_idsOk ids (by simp [Cfg.irqIds]))

/-- The ticker raises only lines the configuration names, which exist (R371, R433). -/
theorem tickPhaseStep_fatal {s : State} (ids : s.cfg.idsOk = true) : (tickPhaseStep s).fatal = s.fatal := by
  unfold tickPhaseStep
  split
  · have hptLine : s.cfg.hptIrq.toNat < s.cfg.maxIrq := lt_maxIrq_of_idsOk ids (by simp [Cfg.irqIds])
    rw [timersPhase, setPhase_fatal, raiseHpt_fatal (by rwa [tickWalk_cfg]), tickWalk_fatal]
    rfl
  · exact cfPhase_fatal s
  · exact cfIrqPhase_fatal ids

/-! ### The operations that find one -/

/-- What makes an operation end the run, with the reason it records (R403). -/
def FatalCause (s : State) (i : Instr) (r : FatalReason) : Prop :=
  (∃ ch v, i = .edmStart ch v ∧ edmacIrq s.cfg ch = none ∧ r = .edmacNoIrq ch) ∨
  (∃ v, i = .cfDmaReq v ∧ s.cf.dmaEnabled = false ∧ r = .cfDmaNotEnabled) ∨
  (∃ id d, i = .icTrigger id d ∧ s.cfg.maxIrq ≤ id.toNat ∧ r = .irqIdOutOfRange id)

/-- The operation leaves `fatal` as it was, or it has one of the three causes and changes nothing else (R403). -/
def FatalOnlyBy (s t : State) (i : Instr) : Prop :=
  t.fatal = s.fatal ∨ ∃ r, FatalCause s i r ∧ t = raiseFatal r s

theorem edmStart_fatalOnlyBy {ch : Nat} {v : Word} {s t : State} (h : exec (.edmStart ch v) s = .next t) :
    FatalOnlyBy s t (.edmStart ch v) := by
  simp only [exec, execEdmStart] at h
  split at h
  · split at h
    · rename_i noEntry
      cases h
      exact .inr ⟨_, .inl ⟨ch, v, rfl, noEntry, rfl⟩, rfl⟩
    · cases h
      exact .inl rfl
  · cases h
    exact .inl rfl

theorem cfDmaReq_fatalOnlyBy {v : Word} {s t : State} (h : exec (.cfDmaReq v) s = .next t) :
    FatalOnlyBy s t (.cfDmaReq v) := by
  simp only [exec, execCfDmaReq] at h
  split at h
  · cases h
    exact .inl rfl
  · rename_i dir _
    split at h
    · cases h
      rw [cfFlag_eq]
      exact .inl rfl
    · rename_i disabled
      cases h
      exact .inr ⟨_, .inr (.inl ⟨v, rfl, Bool.eq_false_iff.2 disabled, rfl⟩), rfl⟩

theorem icTrigger_fatalOnlyBy (id d : Word) (s : State) : FatalOnlyBy s (trigger id d s) (.icTrigger id d) := by
  obtain ⟨beyond, e⟩ | ⟨line, -⟩ | ⟨line, -⟩ := trigger_cases id d s
  · exact .inr ⟨_, .inr (.inr ⟨id, d, rfl, beyond, rfl⟩), e⟩
  · exact .inl (trigger_fatal_of_lt line)
  · exact .inl (trigger_fatal_of_lt line)

/-- Under a configuration whose interrupt ids exist, no operation but the three finds a violation. -/
theorem exec_fatalOnlyBy {i : Instr} {s t : State} (ids : s.cfg.idsOk = true) (h : exec i s = .next t) :
    FatalOnlyBy s t i := by
  cases i with
  | edmStart ch v => exact edmStart_fatalOnlyBy h
  | cfDmaReq v => exact cfDmaReq_fatalOnlyBy h
  | icTrigger id d =>
    cases h
    exact icTrigger_fatalOnlyBy id d s
  | accUnknownR a =>
    cases h
    exact .inl (unknownAccess_fatal a false 0 s)
  | accUnknownW a v =>
    cases h
    exact .inl (unknownAccess_fatal a true v s)
  | modelConstR a =>
    simp only [exec, execModelConstR] at h
    split at h <;> cases h <;> exact .inl rfl
  | icEnableW v =>
    simp only [exec, execIcEnableW] at h
    split at h <;> cases h <;> exact .inl rfl
  | icDisableW k v =>
    cases h
    exact .inl (foldl_keeps (P := fun u => u.fatal = s.fatal) (fun u id hu => (disableLine_fatal u id).trans hu) _ rfl)
  | icTickWalk => exact .inl (fatal_of_tickerStep (tickWalk_fatal s) h)
  | tmrTick => exact .inl (fatal_of_tickerStep (f := timersAdvance) rfl h)
  | hptTick => exact .inl (fatal_of_tickerStep (f := hptCompare) rfl h)
  | cfDmaSlice => exact .inl (fatal_of_tickerStep (cfPhase_fatal s) h)
  | cfDmaIrq => exact .inl (fatal_of_tickerStep (cfIrqPhase_fatal ids) h)
  | tick => exact .inl (fatal_of_tickerStep (tickPhaseStep_fatal ids) h)
  | tmrCtrlW n v =>
    simp only [exec, execTmrCtrlW] at h
    split at h
    · split at h <;> cases h <;> exact .inl rfl
    · cases h
      exact .inl rfl
  | dmaStart c v =>
    simp only [exec, execDmaStart] at h
    split at h <;> cases h <;> exact .inl rfl
  | chswRW second off v =>
    cases h
    exact .inl (chswReadAssign_fatal _ off v s)
  | chswWW second off v =>
    cases h
    exact .inl (chswWriteAssign_fatal _ off v s)
  | sdDmactrlW v =>
    cases h
    exact .inl ((sdTryIrq_fatal _).trans (sdTryData_fatal _))
  | sdIssue v =>
    simp only [exec, execSdIssue] at h
    split at h <;> cases h
    · exact .inl (((sdTryIrq_fatal _).trans (sdTryData_fatal _)).trans (sdCommand_fatal s))
    · exact .inl rfl
  | sdIrqenW v =>
    cases h
    exact .inl (sdTryIrq_fatal _)
  | cfAtaR off =>
    cases h
    exact .inl ((fatal_of_ideSignal (afterIde_cases _)).trans (ideRead_fatal off s))
  | cfAtaW off v =>
    cases h
    exact .inl (fatal_of_ideSignal (s := emit (.ideWrite off v) s) (t := afterIde _) (afterIde_cases _))
  | cfStatusR =>
    cases h
    exact .inl (ideRead_fatal _ s)
  | cfIdeDone =>
    cases h
    exact .inl (fatal_of_ideSignal (ideCompleted_cases s))
  | sdDmaregW r v | sdDmaregR r | cfDmaregW r v | cfDmaregR r => cases r <;> cases h <;> exact .inl rfl
  | planeAddrW p v | planeAddrR p => cases p <;> cases h <;> exact .inl rfl
  | dispCompose =>
    cases h
    exact .inl (compose_fatal s)
  | flRead | flBusyRead | flUnlock1 | flUnlock2 | flCmdProgram | flCmdErase | flEraseUnlock1 | flEraseUnlock2
  | flChipErase | flBlockErase | flBypassEraseEntry | flBypassProgramEntry | flBypassChipErase | flBypassBlockErase
  | flProgramData | flBadCycle | flPassR | flPassW => exact .inl (fatal_of_exec_onBank rfl h)
  | _ =>
    cases h
    exact .inl rfl

/-- The trigger step of an owed call that names a line finds no violation (R83, R142). -/
theorem owed_fatal {q : TriggerCall} {rest : List TriggerCall} {u : State} (safe : u.fatal = none)
    (line : q.id.toNat < u.cfg.maxIrq) :
    (orFatal u (trigger q.id q.delay (u.withAgents { u.agents with cpuQueue := rest }))).fatal = none := by
  have kept : (trigger q.id q.delay (u.withAgents { u.agents with cpuQueue := rest })).fatal = none :=
    (trigger_fatal_of_lt (by simpa using line)).trans safe
  rwa [orFatal_none kept]

/-- Settles O21: the move is an operation with one of the three causes; an owed trigger names a line, and a move of the
CPU collaborator does not look for a violation. -/
theorem fatalCauses : Obligations.FatalCauses := by
  intro s t r _ ⟨ids, owed⟩ h stopped
  obtain ⟨safe, ⟨bytes, i, next, decoded, -, he⟩ | ⟨q, rest, u, hq, hu, rfl⟩ | ⟨addr, bytes, -, rfl⟩ | ⟨pc, -, rfl⟩⟩ :=
    step_cases h
  · obtain kept | ⟨r', cause, rfl⟩ := exec_fatalOnlyBy (s := popEvent s) ids he
    · cases stopped.symm.trans (kept.trans safe)
    · cases stopped
      exact ⟨rfl, bytes, i, next, decoded, cause⟩
  · have line : q.id.toNat < s.cfg.maxIrq := owed q (hq ▸ List.mem_cons_self)
    have sound : (orFatal u (trigger q.id q.delay (u.withAgents { u.agents with cpuQueue := rest }))).fatal = none := by
      obtain rfl | rfl := hu <;> exact owed_fatal safe line
    cases stopped.symm.trans sound
  · cases stopped.symm.trans safe
  · cases stopped.symm.trans safe

end Sys2Proof.Proofs
